-- ==== Sys2Proof/Word.lean ====
section
/-! DEFINITION. The word types of the 7A (spec/00_scope.md, Addresses and words): 16-bit memory words, 18-bit word
addresses, 32-bit uptimes. -/

namespace Sys2Proof

/-- A word of parameter memory: 16 bits. -/
abbrev Word := BitVec 16

/-- A word address as the bus carries it, 00000H to 3FFFFH. -/
abbrev Addr := BitVec 18

/-- An uptime in seconds, 0 to 4294967295, wrapping (R169). -/
abbrev Uptime := BitVec 32

end Sys2Proof
end

