-- ==== Sys2Proof/Syntax.lean ====
section
/-! DEFINITION. The commands of the 7A: one constructor for each row of spec/opcode_table.json, with the operands the
rules give the command, and the small types the operands are made of. -/

namespace Sys2Proof

/-- The four upstream ports (R1). -/
inductive Port
  | panel | lectern | campus | service
  deriving DecidableEq, Repr

/-- Lamp A and lamp B. -/
inductive Lamp
  | a | b
  deriving DecidableEq, Repr

/-- The seven notice kinds (R144). -/
inductive NoticeKind
  | slotEnding | examLock | serviceTakeover | lampWorn | lampFailed | noLamp | noSignal
  deriving DecidableEq, Repr

/-- A command: bus traffic of a port, a completion of parameter memory, an edge of a line, an expiry of one of the part's
timers, or a step of start-up or reload. A complete write names the whole request: the port sends its header and its
beats in an unbroken run, or, where `writeHeader` and `writeBeat` have delivered all but the last beat of that very
request, its last beat (log 1). A write to a record window names an offset of the window of that class in force (log 2). -/
inductive Instr
  -- resets (R15, R40, R53, R74, R79, R103, R120, R142, R143, R156, R167, R172, R188, R192)
  | powerOnReset
  | lineReset
  -- steps of start-up (R198)
  | charterLoad
  | retainedRecordsRead
  | rebuild
  | scheduleHeaderRead
  | scheduleLoadDone
  -- bus traffic of a port
  | beatTimeout (p : Port)
  | portRead (p : Port) (start : Addr) (length : Nat)
  | forwardedWrite (p : Port) (start : Addr) (beats : List Word)
  | mergedWrite (p : Port) (start : Addr) (beats : List Word)
  | ringTail (p : Port) (w : Word)
  | lightWrite (p : Port) (w : Word)
  | claimWrite (p : Port) (offset : Fin 8) (w : Word)
  | muteWrite (p : Port) (w : Word)
  | trimWrite (p : Port) (offset : Fin 8) (beats : List Word)
  | clockSet (p : Port) (dayHour minuteSecond : Word)
  | scheduleEnable (p : Port) (count : BitVec 6)
  | scheduleDisable (p : Port) (count : BitVec 6)
  | scheduleHeaderWrite (p : Port) (w : Word)
  | portRelease (p : Port) (w : Word)
  | takeoverStart (p : Port)
  | takeoverEnd (p : Port)
  | lampClear (p : Port) (w : Word)
  | lampReplace (p : Port) (lamp tag : Word)
  | charterReload (p : Port) (w : Word)
  | charterReloadReadDone
  -- memory: the addresses of the access's words that memory found failing the parity check (R35)
  | memoryAccessDone (failing : List Addr)
  -- lines and timers
  | keyEdge (on : Bool)
  | keyDebounceExpiry
  | takeoverExpiry
  | holdExpiry (sequence : Word)
  | lampokAssert (l : Lamp)
  | lampokDeassert (l : Lamp)
  | strikeTimeout (l : Lamp)
  | warmupExpiry (l : Lamp)
  | cooldownExpiry (l : Lamp)
  | pwrfail
  | secondTick
  | graceExpiry
  | signalEdge (input : Fin 8) (present : Bool)
  | signalDebounceExpiry (input : Fin 8)
  | frameEdge
  | substituteTick
  | noticeExpiry (k : NoticeKind)
  -- a write collected beat by beat (R2, R8)
  | writeHeader (p : Port) (start : Addr) (length : Nat)
  | writeBeat (p : Port) (w : Word)
  | pwrfailDeassert
  deriving DecidableEq, Repr

end Sys2Proof
end

