-- ==== Sys2Proof/Config.lean ====
section
/-! DEFINITION. The sizes the spec fixes, and the free values: opaque constants without a body, one for each value that
the spec leaves open. Each is applied to a ticket, a fresh number from the counter `Sup.ticket` of the state. -/

namespace Sys2Proof.Config

/-- Crystal periods in one second (R169). -/
def periodsPerSecond : Nat := 32768

/-- Words of parameter memory (spec/00_scope.md). -/
def memoryWords : Nat := 0x40000

/-- First word of the retained region (R18). -/
def retainedBase : Nat := 0x3C000

/-- Entries of the hold table and words of its pool (R57). -/
def holdEntries : Nat := 24
def poolWords : Nat := 64

/-- Records the report queue holds (R38). -/
def reportQueueSize : Nat := 16

/-- Places of the notice stack (R146). -/
def stackPlaces : Nat := 6

/-- Free value (log 9): how many words of a write abandoned by a reset memory had written (R15, R40). -/
opaque abandonedWords : Nat → Nat

/-- Free value (log 18): whether the geometry unit takes a tick before the sequencer, where LIVE_MUTE changes (R139). -/
opaque geometryTickFirst : Nat → Bool

/-- Free value (log 16): the detail word of a report whose rule gives it no meaning (R8, R10, R12, R13). -/
opaque unstatedDetail : Nat → Word

/-- Free value (log 15): the beat timeout before any charter is in force, kept within 1 to 255 µs by its reader (R8). -/
opaque earlyBeatTimeout : Nat → Nat

/-- Free value (log 15): the signal settle time in half-seconds before any charter is in force, kept within 1 to 16 by
its reader (R122). -/
opaque earlySettleHalves : Nat → Nat

end Sys2Proof.Config
end

