-- ==== Sys2Proof/Machine/State.lean ====
section
/-! DEFINITION. The state of the machine as plain data: parameter memory, every block of the 7A under the names of the
spec, and the queue of waiting commands; and the state right after a power-on reset. -/

namespace Sys2Proof.Machine

/-! ### Named values (R202 gives their codes) -/

inductive LightLevel
  | off | eco | normal | boost
  deriving DecidableEq, Repr

inductive LampState
  | dark | striking | warming | lit | cooling | failed
  deriving DecidableEq, Repr

inductive LifeStage
  | fresh | worn | spent
  deriving DecidableEq, Repr

/-- The lock levels, OPEN (here `unlocked`), LECTERN, EXAM, SERVICE, least restrictive first (R41). -/
inductive LockLevel
  | unlocked | lectern | exam | service
  deriving DecidableEq, Repr

inductive Select
  | input (i : Fin 8) | slate | blank
  deriving DecidableEq, Repr

inductive Mute
  | clear | muted
  deriving DecidableEq, Repr

/-- The five claimants (R124). -/
inductive Claimant
  | panel | lectern | campus | service | schedule
  deriving DecidableEq, Repr

inductive SeqState
  | idle | muting | settling | revealing
  deriving DecidableEq, Repr

/-- The attention causes, highest first (R193). -/
inductive Cause
  | lamp | port | setup | ring
  deriving DecidableEq, Repr

inductive ResetCause
  | power | line
  deriving DecidableEq, Repr

/-- The reason codes of a DENIED response, in code order 1 to 11 (R4). -/
inductive DenyReason
  | locked | quarantined | span | burst | foreign | record | geometry | full | timeout | active | state
  deriving DecidableEq, Repr

/-- The report kinds (R207). -/
inductive ReportKind
  | struck | lit | lampOff | strikeFail | dropout | failed | transfer | noLamp | worn | spent
  | replaced | cleared | hotStart | recordBad | beatTimeout | quarantined | released | retryLimit | parity | expired
  | torn | releaseDenied | switched | lockChanged | slotStart | slotEnd | loadFail | clockSet | charterLoaded | fallback
  | reloadFail
  deriving DecidableEq, Repr

/-! ### One of a thing for each port, each lamp, each claimant, each corner coordinate -/

structure PerPort (α : Type) where
  panel : α
  lectern : α
  campus : α
  service : α
  deriving DecidableEq, Repr

structure PerLamp (α : Type) where
  a : α
  b : α
  deriving DecidableEq, Repr

structure PerClaimant (α : Type) where
  panel : α
  lectern : α
  campus : α
  service : α
  schedule : α
  deriving DecidableEq, Repr

/-- The eight corner coordinates in the order of the GEOMETRY offsets 0 to 7. -/
structure Corners where
  tlX : Int
  tlY : Int
  trX : Int
  trY : Int
  blX : Int
  blY : Int
  brX : Int
  brY : Int
  deriving DecidableEq, Repr

/-! ### The charter (R196, R208) -/

inductive WindowClass
  | unused | plain | light | claim | mute | geometry | clock | status | service
  deriving DecidableEq, Repr

/-- A configured window record (R19). `lockHold` is lock action HOLD, `exhaustWait` is exhaustion WAIT. -/
structure Window where
  cls : WindowClass
  base : Nat
  size : Nat
  gated : Bool
  lockHold : Bool
  bursts : Bool
  litOnly : Bool
  exhaustWait : Bool
  deriving DecidableEq, Repr

/-- The port parameters (R8, R9, R12, R33): beat timeout in µs, retry limit 0 for none, `fixedArbiter` for mode FIXED. -/
structure PortParams where
  beatTimeout : Nat
  faultLimit : Nat
  isolation : Bool
  retryLimit : Nat
  fixedArbiter : Bool
  deriving DecidableEq, Repr

/-- The permit table (R49): for each level, for each port, whether it is in the level's set. -/
structure PermitTable where
  unlocked : PerPort Bool
  lectern : PerPort Bool
  exam : PerPort Bool
  service : PerPort Bool
  deriving DecidableEq, Repr

/-- The lamp group; times in seconds, life in hours; `dual` for mode DUAL (R80). -/
structure LampParams where
  dual : Bool
  strike : Nat
  warmUp : Nat
  cooldown : Nat
  attempts : Nat
  warnHours : Nat
  limitHours : Nat
  deriving DecidableEq, Repr

/-- An entry of the priority table (R125). -/
structure PriorityEntry where
  number : Nat
  urgentMode : Bool
  notices : Bool
  deriving DecidableEq, Repr

/-- An entry of the input map (R121). -/
structure InputEntry where
  select : Select
  needsSignal : Bool
  valid : Bool
  deriving DecidableEq, Repr

/-- An entry of the notice table (R144); duration in seconds, 0 until the cause ends. -/
structure NoticeParams where
  overlay : Nat
  opacity : Nat
  duration : Nat
  deriving DecidableEq, Repr

/-- The geometry group (R157). -/
structure GeometryParams where
  baseline : Corners
  minima : Corners
  maxima : Corners
  minWidth : Nat
  minHeight : Nat
  slewStep : Nat
  presets : List Corners
  deriving DecidableEq, Repr

/-- The report ring group (R190, R195); age in seconds. -/
structure RingParams where
  base : Nat
  count : Nat
  threshold : Nat
  age : Nat
  deriving DecidableEq, Repr

/-- A charter: takeover timeout, grace interval and hold age limit in minutes, settle time in half-seconds. -/
structure Charter where
  version : Word
  windows : List Window
  port : PortParams
  permit : PermitTable
  takeoverMinutes : Nat
  lamp : LampParams
  priority : List PriorityEntry
  inputs : List InputEntry
  settleHalves : Nat
  settleCount : Nat
  notices : List NoticeParams
  geometry : GeometryParams
  graceMinutes : Nat
  ring : RingParams
  holdMinutes : Nat
  deriving DecidableEq, Repr

/-! ### Parameter memory -/

/-- Parameter memory: the words other than 0000H by rising address, and the addresses whose word fails the parity check
(R35). -/
structure Memory where
  cells : List (Nat × Word)
  bad : List Nat
  deriving DecidableEq, Repr

/-- A word as an internal read hands it over: its value and whether it failed the parity check (R35). -/
structure ReadWord where
  value : Word
  bad : Bool
  deriving DecidableEq, Repr

/-! ### Ports and memory port -/

/-- A response given to a port (R3); DONE carries the data beats of a READ. -/
inductive Response
  | done (data : List Word)
  | wait
  | held
  | denied (r : DenyReason)
  | fault
  deriving DecidableEq, Repr

/-- A forwarded request: a READ with, for a PANEL read that covers it, the place of ATTENTION in its range (R23), or a
WRITE with its beats. -/
inductive Request
  | read (start length : Nat) (attention : Option Nat)
  | write (start : Nat) (beats : List Word)
  deriving DecidableEq, Repr

/-- What a port controller holds of a request (R5). -/
inductive Collection
  | idle
  | collecting (start length : Nat) (beats : List Word)
  | awaiting (r : Request)
  deriving DecidableEq, Repr

/-- A port controller (R5). `timer` is the end time of a running beat timer; `response` is the response last given, none
since a reset or since a header was taken in (log 33). -/
structure PortCtl where
  quarantined : Bool
  faults : Nat
  waits : Nat
  collection : Collection
  timer : Option Nat
  response : Option Response
  deriving DecidableEq, Repr

inductive Admission
  | stalled | admitting
  deriving DecidableEq, Repr

/-- Members of the arbiter's first ring, in ring order (R32). -/
inductive FirstRing
  | internal | lectern | panel | group
  deriving DecidableEq, Repr

/-- Members of the arbiter's second ring, in ring order (R32). -/
inductive SecondRing
  | campus | service
  deriving DecidableEq, Repr

/-- Who asked for an internal read (R39). -/
inductive Reader
  | charterStart | records | rebuild | header | entries | charterReload
  deriving DecidableEq, Repr

/-- An internal read: its number, who asked, its run of words, and the words read so far (R39). -/
structure InternalRead where
  number : Nat
  reader : Reader
  start : Nat
  length : Nat
  words : List ReadWord
  deriving DecidableEq, Repr

/-- An item of the release queue (R37). -/
structure ReleaseItem where
  port : Port
  start : Nat
  data : List Word
  deriving DecidableEq, Repr

/-- A report record (R189). -/
structure Report where
  kind : ReportKind
  subject : Nat
  uptime : Uptime
  detail : Word
  deriving DecidableEq, Repr

/-- The access in progress at the memory port (R31). A `lostRecord` is the write of a record into a ring that has been
restarted meanwhile (log 22). -/
inductive Access
  | port (p : Port) (r : Request)
  | control (address : Nat) (value : Word)
  | piece (number start length : Nat)
  | release (item : ReleaseItem)
  | record (start : Nat) (r : Report)
  | lostRecord (start : Nat) (r : Report)
  deriving DecidableEq, Repr

/-- The memory port controller and the internal requester (R31 to R39). -/
structure MemPort where
  first : FirstRing
  second : SecondRing
  access : Option Access
  control : List (Nat × Word)
  reads : List InternalRead
  nextRead : Nat
  releases : List ReleaseItem
  reports : List Report
  deriving DecidableEq, Repr

/-! ### The blocks -/

/-- The crystal: its count of periods and the count at which the next second tick comes (R169). -/
structure TimeBase where
  crystal : Nat
  nextSecond : Nat
  deriving DecidableEq, Repr

/-- The levels of the lines KEY, PWRFAIL, LAMPOK_A and LAMPOK_B. -/
structure Lines where
  key : Bool
  pwrfail : Bool
  lampok : PerLamp Bool
  deriving DecidableEq, Repr

/-- The step of start-up whose end is awaited (R198); `running` outside start-up. -/
inductive StartStep
  | charterLoad | records | rebuild | header | entries | running
  deriving DecidableEq, Repr

structure StartUp where
  step : StartStep
  cause : ResetCause
  deriving DecidableEq, Repr

/-- The lock controller (R41 to R46). `key` is the debounced key state; `takeover` is the end time while active. -/
structure LockCtl where
  schedule : LockLevel
  key : Bool
  keyInterval : Option Nat
  takeover : Option Nat
  level : LockLevel
  deriving DecidableEq, Repr

/-- What a held write waits for (R55). -/
inductive Condition
  | lock | lit
  deriving DecidableEq, Repr

/-- A hold entry (R55); its length is the length of its data. `serial` is the model's own: how many entries had been made since
the reset when this one was, by which a release set knows its entries again (R63; log 52). -/
structure HoldEntry where
  port : Port
  start : Nat
  data : List Word
  window : Nat
  condition : Condition
  time : Uptime
  sequence : Word
  serial : Nat
  deriving DecidableEq, Repr

/-- The hold table, entries in sequence order (R55, R56). `made` is the model's own: the entries made since the reset (log 52). -/
structure HoldTable where
  entries : List HoldEntry
  counter : Word
  made : Nat
  deriving DecidableEq, Repr

/-- The light demand record (R76). -/
structure Demand where
  level : LightLevel
  setTime : Uptime
  deriving DecidableEq, Repr

/-- One lamp's state machine (R85). -/
structure LampCell where
  state : LampState
  timer : Option Nat
  attempts : Nat
  marked : Bool
  recordValid : Bool
  command : LightLevel
  deriving DecidableEq, Repr

/-- The lamp controller (R76 to R98). -/
structure LampCtl where
  demand : Demand
  duty : Option Lamp
  noLamp : Bool
  lamps : PerLamp LampCell
  deriving DecidableEq, Repr

/-- One lamp's counters (R105). `record` is the part's current value of the eight record words (R28). -/
structure WearCell where
  wear : Nat
  litSeconds : Nat
  strikes : Nat
  strikeFailures : Nat
  dropouts : Nat
  tag : Word
  stage : LifeStage
  flushCount : Nat
  loaded : Bool
  record : List Word
  deriving DecidableEq, Repr

/-- The wear unit, with the shutdown record's hot set, start count and last reset cause (R105, R114). -/
structure WearUnit where
  lamps : PerLamp WearCell
  hot : PerLamp Bool
  startCount : Word
  lastCause : ResetCause
  deriving DecidableEq, Repr

/-- A claim word (R123); source none is WITHDRAW. -/
structure ClaimWord where
  source : Option Nat
  cls : Nat
  urgent : Bool
  deriving DecidableEq, Repr

structure Claim where
  word : ClaimWord
  time : Uptime
  deriving DecidableEq, Repr

/-- One input's line, debounced state and running interval (R122). -/
structure Signal where
  line : Bool
  present : Bool
  interval : Option Nat
  deriving DecidableEq, Repr

/-- The source resolver (R121 to R129, R138); eight signals. -/
structure Resolver where
  claims : PerClaimant Claim
  requestedMute : Mute
  signals : List Signal
  winner : Option Claimant
  target : Select
  noSignal : Bool
  deriving DecidableEq, Repr

/-- The switch sequencer and the frame tick source (R131, R132). `nextTick` is when the next substitute tick comes if no
FRAME edge comes before. -/
structure Sequencer where
  state : SeqState
  counter : Nat
  liveSelect : Select
  liveMute : Mute
  nextTick : Nat
  deriving DecidableEq, Repr

/-- An entry of the notice stack (R146). -/
structure NoticeEntry where
  kind : NoticeKind
  expiry : Option Nat
  live : Bool
  deriving DecidableEq, Repr

/-- The notice stack controller (R146, R151, R152): the stack bottom first, the pending set in code order. -/
structure NoticeCtl where
  stack : List NoticeEntry
  pending : List NoticeKind
  winningClass : Option Nat
  overlay : Word
  deriving DecidableEq, Repr

/-- The geometry unit (R158). -/
structure GeometryUnit where
  trim : Corners
  target : Corners
  live : Corners
  slewing : Bool
  deriving DecidableEq, Repr

/-- The room clock (R169). -/
structure RoomClock where
  timeOfWeek : Nat
  isSet : Bool
  uptime : Uptime
  deriving DecidableEq, Repr

inductive ScheduleState
  | disabled | loading | enabled
  deriving DecidableEq, Repr

/-- A timetable entry as loaded (R175). `light` is the level of policy PREWARM, `grace` is end policy OFF_AFTER_GRACE. -/
structure SlotEntry where
  startMinute : Nat
  endMinute : Nat
  level : LockLevel
  claim : ClaimWord
  light : Option LightLevel
  lead : Nat
  grace : Bool
  preset : Nat
  warning : Nat
  deriving DecidableEq, Repr

/-- A running grace (R183). -/
structure Grace where
  endUptime : Uptime
  slotEnd : Uptime
  deriving DecidableEq, Repr

/-- The schedule controller (R173). `load` is the number of the internal read of the load in progress. -/
structure Scheduler where
  count : Nat
  enable : Bool
  state : ScheduleState
  loaded : List SlotEntry
  current : Option Nat
  warned : Bool
  grace : Option Grace
  load : Option Nat
  deriving DecidableEq, Repr

/-- The attention set (R193). -/
structure AttentionSet where
  lamp : Bool
  port : Bool
  setup : Bool
  ring : Bool
  deriving DecidableEq, Repr

/-- The report unit (R190, R193). -/
structure ReportUnit where
  head : Nat
  tail : Nat
  overflow : Bool
  unread : List Uptime
  attention : AttentionSet
  deriving DecidableEq, Repr

/-- The supervisor: everything the 7A itself holds. -/
structure Sup where
  time : TimeBase
  ticket : Nat
  lines : Lines
  startUp : StartUp
  charter : Option Charter
  isFallback : Bool
  reloading : Bool
  admission : Admission
  ports : PerPort PortCtl
  mp : MemPort
  lock : LockCtl
  hold : HoldTable
  lamp : LampCtl
  wear : WearUnit
  source : Resolver
  seq : Sequencer
  notice : NoticeCtl
  geo : GeometryUnit
  room : RoomClock
  sched : Scheduler
  ring : ReportUnit
  deriving DecidableEq, Repr

/-- The machine: the commands that wait, parameter memory, and the 7A. -/
structure State where
  pending : List Instr
  mem : Memory
  sup : Sup
  deriving DecidableEq, Repr

/-- Nothing stops the 7A: the spec names no event after which it does not go on. So no fault exists. -/
inductive Fault
  deriving DecidableEq, Repr

/-- Why a command has no meaning. -/
inductive Refusal
  /-- Raised by exec's arm of a command that has no meaning yet. Safe: nothing is claimed of it. -/
  | notModelled (mnemonic : String)
  /-- Raised by the meanings that carry a length, on a length outside 1 to 8, which the bus cannot express (R1). Safe: no
  processor can send it. -/
  | inexpressible
  deriving DecidableEq, Repr

/-! ### The state after a power-on reset -/

/-- A port controller after either reset (R15). -/
def PortCtl.reset : PortCtl :=
  { quarantined := false, faults := 0, waits := 0, collection := .idle, timer := none, response := none }

/-- One lamp's state machine before adoption (R103). -/
def LampCell.reset : LampCell :=
  { state := .dark, timer := none, attempts := 0, marked := false, recordValid := true, command := .off }

/-- One lamp's counters before the records are read (R120). -/
def WearCell.reset : WearCell :=
  { wear := 0, litSeconds := 0, strikes := 0, strikeFailures := 0, dropouts := 0, tag := 0, stage := .fresh,
    flushCount := 0, loaded := false, record := [0, 0, 0, 0, 0, 0, 0, 0] }

/-- WITHDRAW as the part sets it (log 17). -/
def ClaimWord.withdraw : ClaimWord := { source := none, cls := 0, urgent := false }

def Claim.reset : Claim := { word := .withdraw, time := 0 }

/-- Eight equal coordinates. -/
def Corners.all (v : Int) : Corners := ⟨v, v, v, v, v, v, v, v⟩

/-- The 7A after a power-on reset at crystal count `now`, with the next second tick due at `second`, `ticket` free values
taken so far and its input lines at the levels given (R15, R40, R53, R74, R79, R103, R120, R142, R156, R167, R172, R188,
R192); the charter read of start-up is asked for (R198). -/
def Sup.afterPowerOn (now second ticket : Nat) (lines : Lines) (signals : List Bool) : Sup where
  time := { crystal := now, nextSecond := second }
  ticket := ticket
  lines := lines
  startUp := { step := .charterLoad, cause := .power }
  charter := none
  isFallback := false
  reloading := false
  admission := .stalled
  ports := ⟨.reset, .reset, .reset, .reset⟩
  mp :=
    { first := .internal, second := .campus, access := none, control := []
      reads := [{ number := 0, reader := .charterStart, start := 0x3F000, length := 1024, words := [] }]
      nextRead := 1, releases := [], reports := [] }
  lock :=
    { schedule := .unlocked, key := lines.key, keyInterval := none, takeover := none
      level := if lines.key then .lectern else .unlocked }
  hold := { entries := [], counter := 0, made := 0 }
  lamp :=
    { demand := { level := .off, setTime := 0 }, duty := none, noLamp := false, lamps := ⟨.reset, .reset⟩ }
  wear := { lamps := ⟨.reset, .reset⟩, hot := ⟨false, false⟩, startCount := 0, lastCause := .power }
  source :=
    { claims := ⟨.reset, .reset, .reset, .reset, .reset⟩, requestedMute := .clear
      signals := signals.map fun v => { line := v, present := v, interval := none }
      winner := none, target := .blank, noSignal := false }
  seq := { state := .idle, counter := 0, liveSelect := .blank, liveMute := .clear, nextTick := now + 1639 }
  notice := { stack := [], pending := [], winningClass := none, overlay := 0 }
  geo := { trim := .all 0, target := .all 0, live := .all 0, slewing := false }
  room := { timeOfWeek := 0, isSet := false, uptime := 0 }
  sched :=
    { count := 0, enable := false, state := .disabled, loaded := [], current := none, warned := false, grace := none
      load := none }
  ring :=
    { head := 0, tail := 0, overflow := false, unread := [], attention := ⟨false, false, false, false⟩ }

/-- The machine right after a power-on reset: no command waits, memory lists nothing, the input lines are off, and the 7A
is at the charter load step of start-up. -/
def State.reset : State :=
  { pending := []
    mem := { cells := [], bad := [] }
    sup := Sup.afterPowerOn 0 Config.periodsPerSecond 0 { key := false, pwrfail := false, lampok := ⟨false, false⟩ }
      [false, false, false, false, false, false, false, false] }

end Sys2Proof.Machine
end

