-- ==== Sys2Proof/Machine/Ops.lean ====
section
/-! DEFINITION. Named operations over the small structures of the state: one of a thing for each port, lamp, claimant or
coordinate; time; parameter memory. -/

namespace Sys2Proof.Machine

/-! ### One for each port, lamp, claimant, coordinate -/

def PerPort.get {α : Type} (f : PerPort α) : Port → α
  | .panel => f.panel
  | .lectern => f.lectern
  | .campus => f.campus
  | .service => f.service

def PerPort.set {α : Type} (f : PerPort α) (p : Port) (v : α) : PerPort α :=
  match p with
  | .panel => { f with panel := v }
  | .lectern => { f with lectern := v }
  | .campus => { f with campus := v }
  | .service => { f with service := v }

def PerLamp.get {α : Type} (f : PerLamp α) : Lamp → α
  | .a => f.a
  | .b => f.b

def PerLamp.set {α : Type} (f : PerLamp α) (l : Lamp) (v : α) : PerLamp α :=
  match l with
  | .a => { f with a := v }
  | .b => { f with b := v }

def PerClaimant.get {α : Type} (f : PerClaimant α) : Claimant → α
  | .panel => f.panel
  | .lectern => f.lectern
  | .campus => f.campus
  | .service => f.service
  | .schedule => f.schedule

def PerClaimant.set {α : Type} (f : PerClaimant α) (c : Claimant) (v : α) : PerClaimant α :=
  match c with
  | .panel => { f with panel := v }
  | .lectern => { f with lectern := v }
  | .campus => { f with campus := v }
  | .service => { f with service := v }
  | .schedule => { f with schedule := v }

/-- All ports in number order. -/
def allPorts : List Port := [.panel, .lectern, .campus, .service]

end Sys2Proof.Machine

namespace Sys2Proof

def Lamp.other : Lamp → Lamp
  | .a => .b
  | .b => .a

/-- The claimant a port is (R124). -/
def Port.claimant : Port → Machine.Claimant
  | .panel => .panel
  | .lectern => .lectern
  | .campus => .campus
  | .service => .service

end Sys2Proof

namespace Sys2Proof.Machine

/-- The coordinate at an offset 0 to 7 (anything beyond reads as the last). -/
def Corners.at (c : Corners) : Nat → Int
  | 0 => c.tlX
  | 1 => c.tlY
  | 2 => c.trX
  | 3 => c.trY
  | 4 => c.blX
  | 5 => c.blY
  | 6 => c.brX
  | _ => c.brY

/-- The coordinates from a function of the offset. -/
def Corners.build (f : Nat → Int) : Corners := ⟨f 0, f 1, f 2, f 3, f 4, f 5, f 6, f 7⟩

/-- The offsets at which two sets of coordinates differ, in offset order. -/
def Corners.changed (old new : Corners) : List Nat :=
  (List.range 8).filter fun i => old.at i != new.at i

/-! ### Time (spec/00_scope.md, Conventions) -/

/-- Whole crystal periods that cover `us` microseconds. -/
def periodsOfMicros (us : Nat) : Nat := (us * Config.periodsPerSecond + 999999) / 1000000

/-- Crystal periods of `s` seconds. -/
def periodsOfSeconds (s : Nat) : Nat := s * Config.periodsPerSecond

/-- Crystal periods of `h` half-seconds. -/
def periodsOfHalves (h : Nat) : Nat := h * (Config.periodsPerSecond / 2)

/-- The 50 ms of the KEY debounce and of the FRAME watch (R44, R131). -/
def fiftyMillis : Nat := periodsOfMicros 50000

/-- The spacing of substitute ticks, 1/60 s (R131). -/
def sixtieth : Nat := (Config.periodsPerSecond + 59) / 60

/-- The crystal count `n` periods from now. -/
def Sup.after (s : Sup) (n : Nat) : Nat := s.time.crystal + n

/-- The crystal reaches an end time: a command that names an expiry says that its end time has come (log 4). -/
def Sup.reach (s : Sup) (endTime : Nat) : Sup :=
  { s with time.crystal := max s.time.crystal endTime }

/-- Seconds from an earlier uptime to now, across a wrap (log 30). -/
def Sup.since (s : Sup) (t : Uptime) : Nat := (s.room.uptime - t).toNat

/-- A fresh ticket for a free value. -/
def Sup.useTicket (s : Sup) : Sup := { s with ticket := s.ticket + 1 }

/-! ### Bits -/

/-- Bits `hi` down to `lo` of a word, as an unsigned number (R202). -/
def bits (w : Word) (hi lo : Nat) : Nat := (w.toNat / 2 ^ lo) % 2 ^ (hi + 1 - lo)

def bit (w : Word) (i : Nat) : Bool := bits w i i == 1

/-- A word from the number its fields add up to. -/
def word (n : Nat) : Word := BitVec.ofNat 16 n

def flag (b : Bool) (i : Nat) : Nat := if b then 2 ^ i else 0

/-- The low and the high half of a 32-bit quantity, low half first (R202). -/
def halves (n : Nat) : List Word := [word n, word (n / 65536)]

/-! ### Parameter memory -/

/-- The list form of a memory: rising addresses inside the address space, no word 0000H listed. -/
def cellsWf : List (Nat × Word) → Bool
  | [] => true
  | (a, v) :: rest =>
    v != 0 && a < Config.memoryWords &&
      (match rest with
        | [] => true
        | (b, _) :: _ => a < b) && cellsWf rest

/-- Rising addresses inside the address space. -/
def addressesWf : List Nat → Bool
  | [] => true
  | a :: rest =>
    a < Config.memoryWords &&
      (match rest with
        | [] => true
        | b :: _ => a < b) && addressesWf rest

/-- The canonical form of parameter memory. -/
def Memory.wf (m : Memory) : Bool := cellsWf m.cells && addressesWf m.bad

def cellsRead : List (Nat × Word) → Nat → Word
  | [], _ => 0
  | (a, v) :: rest, x => if a = x then v else cellsRead rest x

/-- What memory holds at an address; a word that nothing has written reads 0000H (log 11). -/
def Memory.read (m : Memory) (a : Nat) : Word := cellsRead m.cells a

/-- Put a word at an address of a rising list; 0000H takes the entry out. -/
def cellsWrite : List (Nat × Word) → Nat → Word → List (Nat × Word)
  | [], x, v => if v = 0 then [] else [(x, v)]
  | (a, u) :: rest, x, v =>
    if x < a then (if v = 0 then (a, u) :: rest else (x, v) :: (a, u) :: rest)
    else if x = a then (if v = 0 then rest else (x, v) :: rest)
    else (a, u) :: cellsWrite rest x v

def addressInsert : List Nat → Nat → List Nat
  | [], x => [x]
  | a :: rest, x =>
    if x < a then x :: a :: rest else if x = a then a :: rest else a :: addressInsert rest x

def addressErase : List Nat → Nat → List Nat
  | [], _ => []
  | a :: rest, x => if x = a then rest else a :: addressErase rest x

/-- Write one word; it then has good parity (R35). No word outside the address space is ever written (R21). -/
def Memory.write (m : Memory) (a : Nat) (v : Word) : Memory :=
  if a < Config.memoryWords then { cells := cellsWrite m.cells a v, bad := addressErase m.bad a } else m

/-- Write a run of words in address order (R31). -/
def Memory.writeRun : Memory → Nat → List Word → Memory
  | m, _, [] => m
  | m, a, v :: vs => (m.write a v).writeRun (a + 1) vs

/-- Memory finds the word at an address failing the parity check, now and until it is written again (R35). -/
def Memory.spoil (m : Memory) (a : Nat) : Memory :=
  if a < Config.memoryWords then { m with bad := addressInsert m.bad a } else m

/-- A run of words with the result of each word's parity check. -/
def Memory.readRun (m : Memory) : Nat → Nat → List ReadWord
  | _, 0 => []
  | a, n + 1 => { value := m.read a, bad := m.bad.contains a } :: m.readRun (a + 1) n

/-- Whether two runs of addresses share one. -/
def overlaps (a n b k : Nat) : Bool := a < b + k && b < a + n

end Sys2Proof.Machine
end

