-- ==== Sys2Proof/Machine/Operands.lean ====
section
/-! DEFINITION. The codes and the layouts of the memory-resident formats (R202 to R207): every operand a port writes, every
word the part writes, and the words it reads back. -/

namespace Sys2Proof

/-! ### Codes of ports, lamps and notice kinds (R202, R144) -/

def Port.code : Port → Nat
  | .panel => 0
  | .lectern => 1
  | .campus => 2
  | .service => 3

def Port.ofCode? : Nat → Option Port
  | 0 => some .panel
  | 1 => some .lectern
  | 2 => some .campus
  | 3 => some .service
  | _ => none

def Lamp.code : Lamp → Nat
  | .a => 0
  | .b => 1

def Lamp.ofCode? : Nat → Option Lamp
  | 0 => some .a
  | 1 => some .b
  | _ => none

def NoticeKind.code : NoticeKind → Nat
  | .slotEnding => 1
  | .examLock => 2
  | .serviceTakeover => 3
  | .lampWorn => 4
  | .lampFailed => 5
  | .noLamp => 6
  | .noSignal => 7

end Sys2Proof

namespace Sys2Proof.Machine

/-! ### Codes (R202) -/

def LightLevel.code : LightLevel → Nat
  | .off => 0
  | .eco => 1
  | .normal => 2
  | .boost => 3

def LightLevel.ofCode : Nat → LightLevel
  | 0 => .off
  | 1 => .eco
  | 2 => .normal
  | _ => .boost

def LampState.code : LampState → Nat
  | .dark => 0
  | .striking => 1
  | .warming => 2
  | .lit => 3
  | .cooling => 4
  | .failed => 5

def LifeStage.code : LifeStage → Nat
  | .fresh => 0
  | .worn => 1
  | .spent => 2

def LifeStage.ofCode? : Nat → Option LifeStage
  | 0 => some .fresh
  | 1 => some .worn
  | 2 => some .spent
  | _ => none

def LockLevel.code : LockLevel → Nat
  | .unlocked => 0
  | .lectern => 1
  | .exam => 2
  | .service => 3

def Select.code : Select → Nat
  | .input i => i.val
  | .slate => 8
  | .blank => 9

def Select.ofCode? (n : Nat) : Option Select :=
  if h : n < 8 then some (.input ⟨n, h⟩) else if n = 8 then some .slate else if n = 9 then some .blank else none

def Mute.code : Mute → Nat
  | .clear => 0
  | .muted => 1

def Mute.ofBit (b : Bool) : Mute := if b then .muted else .clear

def Claimant.code : Claimant → Nat
  | .panel => 0
  | .lectern => 1
  | .campus => 2
  | .service => 3
  | .schedule => 4

/-- A winning claimant, or NONE 7. -/
def partyCode : Option Claimant → Nat
  | some c => c.code
  | none => 7

def SeqState.code : SeqState → Nat
  | .idle => 0
  | .muting => 1
  | .settling => 2
  | .revealing => 3

def ScheduleState.code : ScheduleState → Nat
  | .disabled => 0
  | .loading => 1
  | .enabled => 2

def ResetCause.code : ResetCause → Nat
  | .power => 0
  | .line => 1

/-- The reason codes of R4. -/
def DenyReason.code : DenyReason → Nat
  | .locked => 1
  | .quarantined => 2
  | .span => 3
  | .burst => 4
  | .foreign => 5
  | .record => 6
  | .geometry => 7
  | .full => 8
  | .timeout => 9
  | .active => 10
  | .state => 11

/-- The kind codes of R207. -/
def ReportKind.code : ReportKind → Nat
  | .struck => 0x01
  | .lit => 0x02
  | .lampOff => 0x03
  | .strikeFail => 0x04
  | .dropout => 0x05
  | .failed => 0x06
  | .transfer => 0x07
  | .noLamp => 0x08
  | .worn => 0x09
  | .spent => 0x0A
  | .replaced => 0x0B
  | .cleared => 0x0C
  | .hotStart => 0x0D
  | .recordBad => 0x0E
  | .beatTimeout => 0x10
  | .quarantined => 0x11
  | .released => 0x12
  | .retryLimit => 0x13
  | .parity => 0x14
  | .expired => 0x18
  | .torn => 0x19
  | .releaseDenied => 0x1A
  | .switched => 0x20
  | .lockChanged => 0x21
  | .slotStart => 0x28
  | .slotEnd => 0x29
  | .loadFail => 0x2A
  | .clockSet => 0x2B
  | .charterLoaded => 0x30
  | .fallback => 0x31
  | .reloadFail => 0x32

/-! ### Record windows (R204): a written word is refused when a reserved bit is 1 or a code is unassigned (R202) -/

/-- LIGHT 0: bits 1–0 level. -/
def lightOfWord? (w : Word) : Option LightLevel := if w.toNat < 4 then some (.ofCode w.toNat) else none

/-- MUTE 0: bit 0 mute. -/
def muteOfWord? (w : Word) : Option Mute := if w.toNat < 2 then some (.ofBit (w.toNat == 1)) else none

/-- A claim word's source field: 0 to 15, or 31 for WITHDRAW; 16 to 30 are unassigned. -/
def sourceOfCode? (n : Nat) : Option (Option Nat) :=
  if n < 16 then some (some n) else if n = 31 then some none else none

/-- A claim word read with its reserved bits disregarded (R202, words the part reads back). -/
def claimOfWord? (w : Word) : Option ClaimWord :=
  match sourceOfCode? (bits w 4 0) with
  | some src => some { source := src, cls := bits w 10 8, urgent := bit w 15 }
  | none => none

def ClaimWord.encode (c : ClaimWord) : Word :=
  word (flag c.urgent 15 + c.cls * 256 + (match c.source with | some n => n | none => 31))

/-- A claim word as a port writes it: reserved bits 14–11 and 7–5 must be 0. -/
def claimOfWrite? (w : Word) : Option ClaimWord :=
  if bits w 14 11 = 0 && bits w 7 5 = 0 then claimOfWord? w else none

/-- A GEOMETRY word: signed, −512 to +511. -/
def trimOfWord? (w : Word) : Option Int := if -512 ≤ w.toInt && w.toInt ≤ 511 then some w.toInt else none

def coordWord (v : Int) : Word := BitVec.ofInt 16 v

/-- The two CLOCK words of a time of week: hour and day, second and minute. -/
def clockWords (t : Nat) : List Word :=
  [word (t / 3600 % 24 * 256 + t / 86400), word (t % 60 * 256 + t / 60 % 60)]

/-- The time of week two CLOCK words carry, when no reserved bit is 1 and all four fields are in range (R171). -/
def timeOfClockWords? (w0 w1 : Word) : Option Nat :=
  let day := bits w0 2 0
  let hour := bits w0 12 8
  let minute := bits w1 5 0
  let second := bits w1 13 8
  if bits w0 15 13 = 0 && bits w0 7 3 = 0 && bits w1 15 14 = 0 && bits w1 7 6 = 0 && day ≤ 6 && hour ≤ 23 &&
      minute ≤ 59 && second ≤ 59 then
    some (day * 86400 + hour * 3600 + minute * 60 + second)
  else none

/-- The SCHEDULE header: bits 15–14 enable, bits 5–0 count. -/
def headerWord (count : Nat) (enable : Bool) : Word := word (flag enable 14 + count)

/-- A header read with its reserved bits disregarded: count 0 to 48, enable 0 or 1 (R188). -/
def headerOfWord? (w : Word) : Option (Nat × Bool) :=
  if bits w 5 0 ≤ 48 && bits w 15 14 ≤ 1 then some (bits w 5 0, bits w 15 14 == 1) else none

/-- A header as a port writes it: reserved bits 13–6 must be 0 (R174, R202). -/
def headerOfWrite? (w : Word) : Option (Nat × Bool) := if bits w 13 6 = 0 then headerOfWord? w else none

/-! ### Retained records (R206) -/

def lampMark : Lamp → Nat
  | .a => 0x7A1
  | .b => 0x7A2

def shutdownMark : Word := 0x5D7A

/-- First word of a lamp's record (R18). -/
def lampRecordBase : Lamp → Nat
  | .a => 0x3FF00
  | .b => 0x3FF08

def shutdownBase : Nat := 0x3FF10

/-- The eight words of a lamp record, from the live counters. -/
def lampRecordWords (l : Lamp) (c : WearCell) : List Word :=
  [word (lampMark l * 16 + c.stage.code), word (c.strikeFailures * 256 + c.dropouts), c.tag] ++ halves c.wear ++
    halves c.litSeconds ++ [word c.strikes]

/-- The four words of the shutdown record. -/
def shutdownWords (u : WearUnit) : List Word :=
  [shutdownMark, word (flag u.hot.b 1 + flag u.hot.a 0), u.startCount, word u.lastCause.code]

/-! ### Report records (R207) -/

/-- A count, or hours, seconds or minutes, in a detail word: held at 65535 where larger. -/
def detailOf (n : Nat) : Word := word (min n 65535)

/-- Subject none. -/
def noSubject : Nat := 0xFF

/-- The subject of a hold-table report: the port in bits 7–6, the window number in bits 3–0. -/
def holdSubject (p : Port) (window : Nat) : Nat := p.code * 64 + window

/-- The four words of a report record. -/
def reportWords (r : Report) : List Word :=
  [word (r.kind.code * 256 + r.subject), r.detail] ++ halves r.uptime.toNat

end Sys2Proof.Machine
end

