-- ==== Sys2Proof/Machine/CharterBlock.lean ====
section
/-! DEFINITION. The charter: the fallback charter (R197), the layout of the charter block (R208), the checks a charter
read from memory must pass (R196 with R20, R49, R144, R157), and the keystone arithmetic the geometry check uses (R159). -/

namespace Sys2Proof.Machine

/-! ### Keystone arithmetic (R159) -/

def clampTo (lo hi v : Int) : Int := if v < lo then lo else if hi < v then hi else v

/-- Coordinates clamped to the envelope. -/
def clampCorners (g : GeometryParams) (c : Corners) : Corners :=
  .build fun i => clampTo (g.minima.at i) (g.maxima.at i) (c.at i)

/-- The target of a trim: baseline plus trim, each sum clamped to the envelope. -/
def targetOf (g : GeometryParams) (trim : Corners) : Corners :=
  clampCorners g (.build fun i => g.baseline.at i + trim.at i)

/-- The order check of a set of absolute coordinates. -/
def orderOk (g : GeometryParams) (c : Corners) : Bool :=
  (g.minWidth : Int) ≤ c.trX - c.tlX && (g.minWidth : Int) ≤ c.brX - c.blX &&
    (g.minHeight : Int) ≤ c.blY - c.tlY && (g.minHeight : Int) ≤ c.brY - c.trY

/-! ### The fallback charter (R197) -/

def fallbackWindow (cls : WindowClass) (base size : Nat) : Window :=
  { cls := cls, base := base, size := size, gated := false, lockHold := false, bursts := false, litOnly := false
    exhaustWait := false }

def unusedWindow : Window := fallbackWindow .unused 0 1

/-- The fallback charter. The spec leaves open what sources 10 to 15, which are not valid, select and need, and whether SLATE and
BLANK, whose sources are 8 and 9, are marked as needing a signal: BLANK and no, which nothing reads (R121; log 50). -/
def fallbackCharter : Charter where
  version := 0
  windows :=
    [fallbackWindow .status 0x00000 32, fallbackWindow .light 0x00020 1, fallbackWindow .mute 0x00021 1,
      fallbackWindow .clock 0x00022 2, fallbackWindow .claim 0x00028 8, fallbackWindow .geometry 0x00030 8,
      fallbackWindow .service 0x00038 8, unusedWindow, unusedWindow, unusedWindow, unusedWindow, unusedWindow,
      unusedWindow, unusedWindow, unusedWindow, unusedWindow]
  port := { beatTimeout := 20, faultLimit := 4, isolation := true, retryLimit := 0, fixedArbiter := false }
  permit :=
    { unlocked := ⟨true, true, true, true⟩, lectern := ⟨false, true, false, true⟩, exam := ⟨false, true, false, true⟩
      service := ⟨false, false, false, true⟩ }
  takeoverMinutes := 60
  lamp :=
    { dual := false, strike := 20, warmUp := 60, cooldown := 120, attempts := 3, warnHours := 3000, limitHours := 4000 }
  priority :=
    [⟨0, false, true⟩, ⟨2, false, true⟩, ⟨2, true, true⟩, ⟨4, false, true⟩, ⟨4, true, true⟩, ⟨6, false, false⟩,
      ⟨6, true, false⟩, ⟨7, false, false⟩]
  inputs :=
    [⟨.input 0, true, true⟩, ⟨.input 1, true, true⟩, ⟨.input 2, true, true⟩, ⟨.input 3, true, true⟩,
      ⟨.input 4, true, true⟩, ⟨.input 5, true, true⟩, ⟨.input 6, true, true⟩, ⟨.input 7, true, true⟩,
      ⟨.slate, false, true⟩, ⟨.blank, false, true⟩, ⟨.blank, false, false⟩, ⟨.blank, false, false⟩,
      ⟨.blank, false, false⟩, ⟨.blank, false, false⟩, ⟨.blank, false, false⟩, ⟨.blank, false, false⟩]
  settleHalves := 4
  settleCount := 12
  notices := [⟨21, 12, 0⟩, ⟨22, 16, 10⟩, ⟨23, 16, 0⟩, ⟨24, 10, 30⟩, ⟨25, 12, 120⟩, ⟨26, 16, 0⟩, ⟨27, 12, 0⟩]
  geometry :=
    { baseline := ⟨0, 0, 1919, 0, 0, 1199, 1919, 1199⟩, minima := ⟨0, 0, 1408, 0, 0, 880, 1408, 880⟩
      maxima := ⟨511, 319, 1919, 319, 511, 1199, 1919, 1199⟩, minWidth := 960, minHeight := 600, slewStep := 8
      presets := [.all 0, .all 0, .all 0, .all 0] }
  graceMinutes := 15
  ring := { base := 0x00100, count := 64, threshold := 16, age := 10 }
  holdMinutes := 120

/-- The charter in force. Before the first step of start-up has put one in force three rules read a charter parameter: R8 and R122,
whose values are free then and are not read here (log 15), and R33, whose arbiter mode is then the ROTATING read here (log 44). -/
def Sup.chart (s : Sup) : Charter := s.charter.getD fallbackCharter

/-! ### Reading the block (R208) -/

/-- The checks of a charter, in the order of R196; the n-th is number n (R207). -/
inductive CharterCheck
  | parity | signature | checksum | windows | ports | permit | lamp | sources | signals | notices | geometry | schedule
  | ring | hold
  deriving DecidableEq, Repr

def CharterCheck.number : CharterCheck → Nat
  | .parity => 1
  | .signature => 2
  | .checksum => 3
  | .windows => 4
  | .ports => 5
  | .permit => 6
  | .lamp => 7
  | .sources => 8
  | .signals => 9
  | .notices => 10
  | .geometry => 11
  | .schedule => 12
  | .ring => 13
  | .hold => 14

/-- The word at an offset of the block. -/
def wordAt (ws : List Word) (offset : Nat) : Word := ws.getD offset 0

/-- The words of a run of offsets. -/
def slice (ws : List Word) (offset n : Nat) : List Word := (ws.drop offset).take n

def windowClassOf? : Nat → Option WindowClass
  | 0 => some .unused
  | 1 => some .plain
  | 2 => some .light
  | 3 => some .claim
  | 4 => some .mute
  | 5 => some .geometry
  | 6 => some .clock
  | 7 => some .status
  | 8 => some .service
  | _ => none

/-- A window record from its eight words; none for an unassigned class, or a size above 65536 of a window in use. The
other fields of an UNUSED window have no effect and are not judged (R19; log 29). -/
def windowOf? (ws : List Word) : Option Window :=
  match windowClassOf? (wordAt ws 0).toNat with
  | none => none
  | some .unused => some unusedWindow
  | some cls =>
    let size := (wordAt ws 3).toNat
    let w := wordAt ws 4
    if 16 < size then none
    else
      some
        { cls := cls, base := (wordAt ws 1).toNat + bits (wordAt ws 2) 1 0 * 65536, size := 2 ^ size, gated := bit w 0
          lockHold := bit w 1, bursts := bit w 2, litOnly := bit w 3, exhaustWait := bit w 4 }

def windowsOf? (ws : List Word) : Option (List Window) :=
  (List.range 16).mapM fun n => windowOf? (slice ws (0x010 + 8 * n) 5)

def portParamsOf (ws : List Word) : PortParams :=
  { beatTimeout := (wordAt ws 0x090).toNat, faultLimit := (wordAt ws 0x091).toNat, isolation := wordAt ws 0x092 == 1
    retryLimit := (wordAt ws 0x093).toNat, fixedArbiter := wordAt ws 0x094 == 1 }

/-- A permit set: bit n set for port n. -/
def permitSetOf (w : Word) : PerPort Bool := ⟨bit w 0, bit w 1, bit w 2, bit w 3⟩

def permitOf (ws : List Word) : PermitTable :=
  ⟨permitSetOf (wordAt ws 0x098), permitSetOf (wordAt ws 0x099), permitSetOf (wordAt ws 0x09A), permitSetOf (wordAt ws 0x09B)⟩

def lampParamsOf (ws : List Word) : LampParams :=
  { dual := wordAt ws 0x0A0 == 0, strike := (wordAt ws 0x0A1).toNat, warmUp := (wordAt ws 0x0A2).toNat
    cooldown := (wordAt ws 0x0A3).toNat, attempts := (wordAt ws 0x0A4).toNat, warnHours := (wordAt ws 0x0A5).toNat
    limitHours := (wordAt ws 0x0A6).toNat }

def priorityOf (w : Word) : PriorityEntry := { number := bits w 2 0, urgentMode := bit w 8, notices := bit w 12 }

def inputOf? (w : Word) : Option InputEntry :=
  match Select.ofCode? (bits w 3 0) with
  | some sel => some { select := sel, needsSignal := bit w 8, valid := bit w 15 }
  | none => none

def noticeParamsOf (ws : List Word) (n : Nat) : NoticeParams :=
  let w := wordAt ws (0x0E0 + 2 * n)
  { overlay := bits w 7 0, opacity := bits w 12 8, duration := (wordAt ws (0x0E1 + 2 * n)).toNat }

def unsignedCorners (ws : List Word) (offset : Nat) : Corners := .build fun i => ((wordAt ws (offset + i)).toNat : Int)

def signedCorners (ws : List Word) (offset : Nat) : Corners := .build fun i => (wordAt ws (offset + i)).toInt

def geometryOf (ws : List Word) : GeometryParams :=
  { baseline := unsignedCorners ws 0x100, minima := unsignedCorners ws 0x108, maxima := unsignedCorners ws 0x110
    minWidth := (wordAt ws 0x118).toNat, minHeight := (wordAt ws 0x119).toNat, slewStep := (wordAt ws 0x11A).toNat
    presets := (List.range 4).map fun p => signedCorners ws (0x120 + 8 * p) }

/-- The ring group (R208). The bits 17–16 of the base are taken from bits 1–0 of word 149H, as a window's are of its word 2, and the
bits above them are disregarded (log 59). -/
def ringOf (ws : List Word) : RingParams :=
  { base := (wordAt ws 0x148).toNat + bits (wordAt ws 0x149) 1 0 * 65536, count := (wordAt ws 0x14A).toNat
    threshold := (wordAt ws 0x14B).toNat, age := (wordAt ws 0x14C).toNat }

/-! ### The checks (R196) -/

def within (lo hi n : Nat) : Bool := lo ≤ n && n ≤ hi

def Window.used (w : Window) : Bool := w.cls != .unused

/-- A record window: of any class but UNUSED and PLAIN. -/
def Window.isRecord (w : Window) : Bool := w.used && w.cls != .plain

/-- The seven record classes with their least sizes (R20). -/
def recordClasses : List (WindowClass × Nat) :=
  [(.light, 1), (.claim, 8), (.mute, 1), (.geometry, 8), (.clock, 2), (.status, 32), (.service, 8)]

/-- A window in use lies whole below the retained region, at a multiple of its size. -/
def windowPlaced (w : Window) : Bool :=
  !w.used || (w.base % w.size == 0 && w.base + w.size ≤ Config.retainedBase)

/-- No record window of the list shares a word with another window in use. -/
def windowsDisjoint : List Window → Bool
  | [] => true
  | w :: rest =>
    (rest.all fun v =>
        !(w.used && v.used && (w.isRecord || v.isRecord) && overlaps w.base w.size v.base v.size)) &&
      windowsDisjoint rest

/-- R20. -/
def windowTableOk (m : List Window) : Bool :=
  m.all windowPlaced &&
    (recordClasses.all fun (c, least) =>
      match m.filter (fun w => w.cls == c) with
      | [w] => least ≤ w.size
      | _ => false) &&
    windowsDisjoint m

def portParamsOk (ws : List Word) : Bool :=
  let p := portParamsOf ws
  within 1 255 p.beatTimeout && within 1 15 p.faultLimit && (wordAt ws 0x092).toNat ≤ 1 && p.retryLimit ≤ 255 &&
    (wordAt ws 0x094).toNat ≤ 1

/-- One permit set contains another. -/
def permitContains (big small : PerPort Bool) : Bool := allPorts.all fun p => !small.get p || big.get p

/-- R49. -/
def permitOk (t : PermitTable) : Bool :=
  permitContains t.unlocked t.lectern && permitContains t.lectern t.exam &&
    t.unlocked.service && t.lectern.service && t.exam.service && t.service == ⟨false, false, false, true⟩

def lampParamsOk (ws : List Word) : Bool :=
  let p := lampParamsOf ws
  (wordAt ws 0x0A0).toNat ≤ 1 && within 5 60 p.strike && within 30 180 p.warmUp && within 60 300 p.cooldown &&
    within 1 5 p.attempts && within 100 20000 p.warnHours && within 100 20000 p.limitHours &&
    p.warnHours < p.limitHours

/-- R144. -/
def noticeParamsOk (n : NoticeParams) : Bool := within 1 255 n.overlay && within 1 16 n.opacity && n.duration ≤ 255

/-- x coordinates 0 to 1919 at even offsets, y coordinates 0 to 1199 at odd ones. -/
def coordsInRaster (c : Corners) : Bool :=
  (List.range 8).all fun i => 0 ≤ c.at i && c.at i ≤ (if i % 2 = 0 then 1919 else 1199)

def trimInRange (c : Corners) : Bool := (List.range 8).all fun i => -512 ≤ c.at i && c.at i ≤ 511

/-- R157: ranges, envelope order, and the targets of a zero trim and of every preset pass the order check. -/
def geometryOk (g : GeometryParams) : Bool :=
  coordsInRaster g.baseline && coordsInRaster g.minima && coordsInRaster g.maxima &&
    ((List.range 8).all fun i => g.minima.at i ≤ g.maxima.at i) && within 480 1920 g.minWidth &&
    within 300 1200 g.minHeight && g.slewStep ≤ 64 && g.presets.all trimInRange &&
    ((Corners.all 0 :: g.presets).all fun t => orderOk g (targetOf g t))

def ringOk (m : List Window) (r : RingParams) : Bool :=
  within 16 256 r.count && (List.range 9).any (fun k => r.count == 2 ^ k) && within 1 32 r.threshold &&
    within 1 60 r.age && r.base + 4 * r.count ≤ Config.retainedBase &&
    m.all fun w => !(w.isRecord && overlaps w.base w.size r.base (4 * r.count))

/-- The sum of words modulo 65536 (R196, checksum). -/
def sumWords : List Word → Nat → Nat
  | [], acc => acc % 65536
  | w :: ws, acc => sumWords ws (acc + w.toNat)

/-- The charter a block of words stands for, or the first check that fails (R196). -/
def judgeCharter (rs : List ReadWord) : Except CharterCheck Charter :=
  let ws := rs.map (·.value)
  if rs.any (·.bad) then .error .parity
  else if wordAt ws 0 != 0x7A5C then .error .signature
  else if sumWords ws 0 != 0 then .error .checksum
  else
    match windowsOf? ws with
    | none => .error .windows
    | some m =>
      if !windowTableOk m then .error .windows
      else if !portParamsOk ws then .error .ports
      else if !(permitOk (permitOf ws) && within 5 240 (wordAt ws 0x09C).toNat) then .error .permit
      else if !lampParamsOk ws then .error .lamp
      else
        match (slice ws 0x0C0 16).mapM inputOf? with
        | none => .error .sources
        | some inputs =>
          if !(within 1 16 (wordAt ws 0x0D0).toNat && within 1 60 (wordAt ws 0x0D1).toNat) then .error .signals
          else if !((List.range 7).all fun n => noticeParamsOk (noticeParamsOf ws n)) then .error .notices
          else if !geometryOk (geometryOf ws) then .error .geometry
          else if !within 1 60 (wordAt ws 0x140).toNat then .error .schedule
          else if !ringOk m (ringOf ws) then .error .ring
          else if !((wordAt ws 0x150).toNat ≤ 480) then .error .hold
          else
            .ok
              { version := wordAt ws 1, windows := m, port := portParamsOf ws, permit := permitOf ws
                takeoverMinutes := (wordAt ws 0x09C).toNat, lamp := lampParamsOf ws
                priority := (slice ws 0x0B0 8).map priorityOf, inputs := inputs
                settleHalves := (wordAt ws 0x0D0).toNat, settleCount := (wordAt ws 0x0D1).toNat
                notices := (List.range 7).map (noticeParamsOf ws), geometry := geometryOf ws
                graceMinutes := (wordAt ws 0x140).toNat, ring := ringOf ws, holdMinutes := (wordAt ws 0x150).toNat }

/-! ### Parameters looked up -/

/-- The first window of a class; a map in force has exactly one of each record class (R20). -/
def windowBase (m : List Window) (c : WindowClass) : Nat :=
  match m.find? (fun w => w.cls == c) with
  | some w => w.base
  | none => 0

def Charter.inputEntry (c : Charter) (source : Nat) : InputEntry := c.inputs.getD source ⟨.blank, false, false⟩

def Charter.priorityEntry (c : Charter) (cls : Nat) : PriorityEntry := c.priority.getD cls ⟨0, false, false⟩

def Charter.noticeEntry (c : Charter) (k : NoticeKind) : NoticeParams := c.notices.getD (k.code - 1) ⟨0, 0, 0⟩

def PermitTable.at (t : PermitTable) : LockLevel → PerPort Bool
  | .unlocked => t.unlocked
  | .lectern => t.lectern
  | .exam => t.exam
  | .service => t.service

end Sys2Proof.Machine
end

