-- ==== Sys2Proof/Machine/Flags.lean ====
section
/-! DEFINITION. What the blocks' state says at a moment: flags and counts computed from it, the value of every status page
word (R203), and the part's current value of every RETAINED word (R28). -/

namespace Sys2Proof.Machine

/-! ### Lock level (R41) -/

def LockLevel.max (x y : LockLevel) : LockLevel := if x.code < y.code then y else x

def LockCtl.keyContribution (k : LockCtl) : LockLevel := if k.key then .lectern else .unlocked

def LockCtl.takeoverContribution (k : LockCtl) : LockLevel := if k.takeover.isSome then .service else .unlocked

/-- The highest of the three contributions. -/
def LockCtl.highest (k : LockCtl) : LockLevel :=
  (k.schedule.max k.keyContribution).max k.takeoverContribution

/-- The answer to a permit query: whether the port is in the permit set of the level in force (R50). -/
def Sup.permits (s : Sup) (p : Port) : Bool := (s.chart.permit.at s.lock.level).get p

/-! ### Lamps (R80, R114) -/

/-- The lamp's command is other than OFF: the demand is ON (R76). -/
def LightLevel.isOn : LightLevel → Bool
  | .off => false
  | _ => true

/-- In STRIKING, WARMING or LIT. -/
def LampState.serves : LampState → Bool
  | .striking => true
  | .warming => true
  | .lit => true
  | _ => false

/-- In STRIKING, WARMING, LIT or COOLING. -/
def LampState.isHot : LampState → Bool
  | .cooling => true
  | st => st.serves

/-- Not FAILED, no failure-pending mark, not SPENT. -/
def Sup.usable (s : Sup) (l : Lamp) : Bool :=
  (s.lamp.lamps.get l).state != .failed && !(s.lamp.lamps.get l).marked && (s.wear.lamps.get l).stage != .spent

def Sup.serves (s : Sup) (l : Lamp) : Bool := (s.lamp.lamps.get l).state.serves

def Sup.canServe (s : Sup) (l : Lamp) : Bool := s.serves l || s.usable l

/-- The condition of the NO_LAMP flag (R98). -/
def Sup.noLampHolds (s : Sup) : Bool := s.lamp.demand.level.isOn && !s.canServe .a && !s.canServe .b

def Sup.anyLit (s : Sup) : Bool := s.lamp.lamps.a.state == .lit || s.lamp.lamps.b.state == .lit

def Sup.anyFailed (s : Sup) : Bool := s.lamp.lamps.a.state == .failed || s.lamp.lamps.b.state == .failed

/-- Either lamp is WORN or SPENT (R109). -/
def Sup.anyWorn (s : Sup) : Bool := s.wear.lamps.a.stage != .fresh || s.wear.lamps.b.stage != .fresh

/-- The hot set as the lamp states stand. -/
def Sup.hotSet (s : Sup) : PerLamp Bool := ⟨s.lamp.lamps.a.state.isHot, s.lamp.lamps.b.state.isHot⟩

/-- The stage that a wear count gives (R108). -/
def stageOf (p : LampParams) (wear : Nat) : LifeStage :=
  if wear < p.warnHours * 36000 then .fresh else if wear < p.limitHours * 36000 then .worn else .spent

/-! ### Pool, ring, attention -/

def wordsOfEntries (es : List HoldEntry) : Nat := (es.map fun e => e.data.length).sum

def wordsOfReleases (rs : List ReleaseItem) : Nat := (rs.map fun r => r.data.length).sum

/-- The pool words of a release item that is being written. -/
def wordsInAccess : Option Access → Nat
  | some (.release r) => r.data.length
  | _ => 0

/-- Pool words in use: hold entries and release queue items, the one being written included (R57, R37). -/
def Sup.poolInUse (s : Sup) : Nat :=
  wordsOfEntries s.hold.entries + wordsOfReleases s.mp.releases + wordsInAccess s.mp.access

/-- No room in the ring (R190). -/
def Sup.ringFull (s : Sup) : Bool := (s.ring.head + 1) % s.chart.ring.count == s.ring.tail % s.chart.ring.count

/-- Slots from one index forward to another, modulo the count (R190, R191). -/
def slotsFrom (count fromIndex toIndex : Nat) : Nat := (toIndex + count - fromIndex % count) % count

/-- The highest cause present (R193). -/
def AttentionSet.top (a : AttentionSet) : Nat :=
  if a.lamp then 1 else if a.port then 2 else if a.setup then 3 else if a.ring then 4 else 0

/-- The ATTN line: asserted while the attention set is not empty (R193). -/
def Sup.attn (s : Sup) : Bool :=
  s.ring.attention.lamp || s.ring.attention.port || s.ring.attention.setup || s.ring.attention.ring

/-- Either condition of the RING cause (R195). -/
def Sup.ringCauseHolds (s : Sup) : Bool :=
  s.chart.ring.threshold ≤ s.ring.unread.length ||
    (match s.ring.unread with
      | [] => false
      | t :: _ => s.chart.ring.age < s.since t)

/-! ### Geometry and notices -/

/-- A live coordinate differs from its target coordinate (R158). -/
def GeometryUnit.differs (g : GeometryUnit) : Bool := g.live != g.target

/-- The value OVERLAY is to have (R152). -/
def Sup.overlayValue (s : Sup) : Word :=
  match s.notice.stack.getLast? with
  | none => 0
  | some e =>
    let shown :=
      match s.notice.winningClass with
      | none => true
      | some c => (s.chart.priorityEntry c).notices
    if shown then
      let n := s.chart.noticeEntry e.kind
      word (n.opacity * 256 + n.overlay)
    else 0

/-! ### Status page words (R203) -/

def Sup.lampStateWord (s : Sup) : Word :=
  word
    (flag s.lamp.noLamp 10 + s.wear.lamps.b.stage.code * 256 + s.wear.lamps.a.stage.code * 64 +
      s.lamp.lamps.b.state.code * 8 + s.lamp.lamps.a.state.code)

def Sup.attentionWord (s : Sup) : Word :=
  let a := s.ring.attention
  word (flag a.ring 7 + flag a.setup 6 + flag a.port 5 + flag a.lamp 4 + a.top)

def Sup.lockWord (s : Sup) : Word :=
  let k := s.lock
  word
    (k.takeoverContribution.code * 64 + k.keyContribution.code * 16 + k.schedule.code * 4 + k.level.code)

def Sup.sourceWord (s : Sup) : Word :=
  word (s.source.target.code * 256 + partyCode s.source.winner * 4 + s.seq.state.code)

def Sup.holdWord (s : Sup) : Word := word (s.poolInUse * 256 + s.hold.entries.length)

def Sup.schedWord (s : Sup) : Word :=
  word (s.sched.current.getD 63 * 256 + s.sched.state.code * 2 + flag s.room.isSet 0)

def Sup.portAWord (s : Sup) : Word :=
  let q := s.ports
  word
    (q.lectern.faults * 4096 + q.panel.faults * 256 + flag q.service.quarantined 3 + flag q.campus.quarantined 2 +
      flag q.lectern.quarantined 1 + flag q.panel.quarantined 0)

def Sup.portBWord (s : Sup) : Word := word (s.ports.service.faults * 16 + s.ports.campus.faults)

/-- START: the cause of the start the part runs under, and the low eight bits of the start count. -/
def Sup.startWord (s : Sup) : Word := word (s.wear.lastCause.code * 32768 + s.wear.startCount.toNat % 256)

def Sup.charterWord (s : Sup) : Word := word (flag s.isFallback 15 + s.chart.version.toNat % 32768)

/-- The part's value of the status page word at an offset; offsets 25 and beyond are zero. -/
def Sup.statusWord (s : Sup) : Nat → Word
  | 0 => word s.lamp.lamps.a.command.code
  | 1 => word s.lamp.lamps.b.command.code
  | 2 => s.lampStateWord
  | 3 => word s.seq.liveSelect.code
  | 4 => word s.seq.liveMute.code
  | 5 => s.notice.overlay
  | 6 => coordWord s.geo.live.tlX
  | 7 => coordWord s.geo.live.tlY
  | 8 => coordWord s.geo.live.trX
  | 9 => coordWord s.geo.live.trY
  | 10 => coordWord s.geo.live.blX
  | 11 => coordWord s.geo.live.blY
  | 12 => coordWord s.geo.live.brX
  | 13 => coordWord s.geo.live.brY
  | 14 => s.attentionWord
  | 15 => word s.ring.head
  | 16 => word (flag s.ring.overflow 15 + s.ring.tail)
  | 17 => s.lockWord
  | 18 => s.sourceWord
  | 19 => s.holdWord
  | 20 => s.schedWord
  | 21 => s.portAWord
  | 22 => s.portBWord
  | 23 => s.startWord
  | 24 => s.charterWord
  | _ => 0

/-- The status page word that carries a port's fault count (R5). -/
def faultWord : Port → Nat
  | .panel => 21
  | .lectern => 21
  | .campus => 22
  | .service => 22

/-- The part's current value of a RETAINED word (R28); none for the words of a lamp record whose state is invalid, for
which a port write queues nothing. -/
def Sup.retainedWord? (s : Sup) (a : Nat) : Option Word :=
  if a < 0x3FF08 then
    (if s.lamp.lamps.a.recordValid then some (s.wear.lamps.a.record.getD (a - 0x3FF00) 0) else none)
  else if a < 0x3FF10 then
    (if s.lamp.lamps.b.recordValid then some (s.wear.lamps.b.record.getD (a - 0x3FF08) 0) else none)
  else if a < 0x3FF14 then some ((shutdownWords s.wear).getD (a - 0x3FF10) 0)
  else some 0

end Sys2Proof.Machine
end

