-- ==== Sys2Proof/Machine/Requester.lean ====
section
/-! DEFINITION. What every block asks of the internal requester and the report unit: control writes (R36), mirror and
status page writes, internal reads (R39), report records (R189), attention causes (R193), the RING cause (R195). -/

namespace Sys2Proof.Machine

/-! ### Control writes -/

/-- A control write joins the queue: the value of a waiting entry of the same address is replaced in place, otherwise a new
entry joins the tail. The entry being written has left the list (it stands in `access`) (R36). -/
def coalesce : List (Nat × Word) → Nat → Word → List (Nat × Word)
  | [], a, v => [(a, v)]
  | (b, u) :: rest, a, v => if b = a then (b, v) :: rest else (b, u) :: coalesce rest a v

def Sup.queueControl (s : Sup) (a : Nat) (v : Word) : Sup :=
  { s with mp.control := coalesce s.mp.control a v }

/-- A control write of a word of a record window; before a window map is in force the word has no address and nothing is
queued (log 14). -/
def Sup.queueMirror (s : Sup) (c : WindowClass) (offset : Nat) (v : Word) : Sup :=
  match s.charter with
  | some ch => s.queueControl (windowBase ch.windows c + offset) v
  | none => s

/-- A control write of a status page word with the part's value of it. -/
def Sup.queueStatus (s : Sup) (offset : Nat) : Sup := s.queueMirror .status offset (s.statusWord offset)

/-- Control writes of several status page words, in the order given. -/
def Sup.queueStatuses (s : Sup) (offsets : List Nat) : Sup := offsets.foldl Sup.queueStatus s

/-- Control writes of a run of words from an address, by rising address (log 53). -/
def Sup.queueRun (s : Sup) : Nat → List Word → Sup
  | _, [] => s
  | a, v :: vs => (s.queueControl a v).queueRun (a + 1) vs

/-! ### Internal reads (R39) -/

def Sup.askRead (s : Sup) (r : Reader) (start length : Nat) : Sup :=
  { s with
    mp.reads := s.mp.reads ++ [{ number := s.mp.nextRead, reader := r, start := start, length := length, words := [] }]
    mp.nextRead := s.mp.nextRead + 1 }

/-- The words of an internal read once its last piece has been read: those read already, and the rest as memory holds
them (log 8). -/
def InternalRead.finish (r : InternalRead) (m : Memory) : List ReadWord :=
  r.words ++ m.readRun (r.start + r.words.length) (r.length - r.words.length)

/-- The reads a block asked for, in order. -/
def Sup.readsOf (s : Sup) (r : Reader) : List InternalRead := s.mp.reads.filter fun q => q.reader == r

def Sup.dropReads (s : Sup) (r : Reader) : Sup :=
  { s with mp.reads := s.mp.reads.filter fun q => q.reader != r }

def InternalRead.complete (r : InternalRead) : Bool := r.length ≤ r.words.length

/-! ### Attention (R193) -/

def AttentionSet.get (a : AttentionSet) : Cause → Bool
  | .lamp => a.lamp
  | .port => a.port
  | .setup => a.setup
  | .ring => a.ring

def AttentionSet.set (a : AttentionSet) (c : Cause) (v : Bool) : AttentionSet :=
  match c with
  | .lamp => { a with lamp := v }
  | .port => { a with port := v }
  | .setup => { a with setup := v }
  | .ring => { a with ring := v }

/-- The attention set takes a value; a change queues ATTENTION. -/
def Sup.setAttention (s : Sup) (a : AttentionSet) : Sup :=
  if a = s.ring.attention then s else { s with ring.attention := a }.queueStatus 14

def Sup.raise (s : Sup) (c : Cause) : Sup := s.setAttention (s.ring.attention.set c true)

/-- The RING cause is judged (R195); before a charter is in force there is no ring to judge. -/
def Sup.judgeRing (s : Sup) : Sup :=
  if s.charter.isSome then s.setAttention (s.ring.attention.set .ring s.ringCauseHolds) else s

/-! ### Reports (R189) -/

/-- The overflow flag is set; a change queues RING_TAIL (R190). -/
def Sup.setOverflow (s : Sup) : Sup :=
  if s.ring.overflow then s else { s with ring.overflow := true }.queueStatus 16

/-- A block makes a report record: it joins the report queue, or is dropped with the overflow flag when the queue holds 16
(R189, R38). -/
def Sup.report (s : Sup) (k : ReportKind) (subject : Nat) (detail : Word) : Sup :=
  if s.mp.reports.length < Config.reportQueueSize then
    { s with
      mp.reports := s.mp.reports ++ [{ kind := k, subject := subject, uptime := s.room.uptime, detail := detail }] }
  else s.setOverflow

/-- A report whose rule gives its detail no meaning: the detail is a free value (log 16). -/
def Sup.reportPlain (s : Sup) (k : ReportKind) (subject : Nat) : Sup :=
  s.useTicket.report k subject (Config.unstatedDetail s.ticket)

end Sys2Proof.Machine
end

