-- ==== Sys2Proof/Machine/Holding.lean ====
section
/-! DEFINITION. The hold table (R55 to R70, R74): room test, making and removing entries, expiry and teardown. -/

namespace Sys2Proof.Machine

def HoldEntry.isOf (e : HoldEntry) (p : Port) (start : Nat) : Bool := e.port == p && e.start == start

/-- HOLD is queued when the number of entries or of pool words has changed since `before` (R58). Both numbers are compared as a step of
the hold table leaves them: where a supersede or a re-hold brings them back within the step, nothing is queued (log 45). -/
def Sup.noteHold (before after : Sup) : Sup :=
  if before.hold.entries.length = after.hold.entries.length && before.poolInUse = after.poolInUse then after
  else after.queueStatus 19

/-- The room test of R59: the entry of the same port and start, if any, counts as free. -/
def Sup.hasRoom (s : Sup) (p : Port) (start length : Nat) : Bool :=
  let others := s.hold.entries.filter fun e => !e.isOf p start
  others.length < Config.holdEntries &&
    wordsOfEntries others + wordsOfReleases s.mp.releases + wordsInAccess s.mp.access + length ≤ Config.poolWords

/-- The next value of the sequence counter that no entry holds; `tries` bounds the search, one more than the entries
suffices (R56). -/
def nextSequence (used : List Word) : Nat → Word → Word
  | 0, c => c
  | n + 1, c => if used.contains c then nextSequence used n (c + 1) else c

/-- The entry of a port and start address, if there is one, is removed without a report (R61). -/
def Sup.dropEntry (s : Sup) (p : Port) (start : Nat) : Sup :=
  { s with hold.entries := s.hold.entries.filter fun e => !e.isOf p start }

/-- A new entry at the end of the list, with the counter's value as its number and the uptime as its hold time (R59,
R56), and the next serial (log 52). -/
def Sup.addEntry (s : Sup) (p : Port) (start : Nat) (data : List Word) (window : Nat) (c : Condition) : Sup :=
  let e : HoldEntry :=
    { port := p, start := start, data := data, window := window, condition := c, time := s.room.uptime
      sequence := s.hold.counter, serial := s.hold.made }
  let es := s.hold.entries ++ [e]
  { s with
    hold.entries := es
    hold.counter := nextSequence (es.map (·.sequence)) (es.length + 1) (s.hold.counter + 1)
    hold.made := s.hold.made + 1 }

/-- A write of a port that passed the room test is held, superseding (R59, R61). -/
def Sup.holdWrite (s : Sup) (p : Port) (start : Nat) (data : List Word) (window : Nat) (c : Condition) : Sup :=
  s.noteHold ((s.dropEntry p start).addEntry p start data window c)

/-- A write of a port is applied: the entry of its port and start is superseded (R61). -/
def Sup.supersede (s : Sup) (p : Port) (start : Nat) : Sup := s.noteHold (s.dropEntry p start)

/-- A write of a port is applied and forwarded: unbegun release items of its port and start are removed too, all of them where several
stand (R61; log 19). -/
def Sup.overtake (s : Sup) (p : Port) (start : Nat) : Sup :=
  s.noteHold
    { s with mp.releases := s.mp.releases.filter fun r => !(r.port == p && r.start == start) }

def Sup.entryOf (s : Sup) (q : Word) : Option HoldEntry := s.hold.entries.find? fun e => e.sequence == q

/-- The entry of a serial, while it is in the table (log 52). -/
def Sup.entryMade (s : Sup) (n : Nat) : Option HoldEntry := s.hold.entries.find? fun e => e.serial == n

/-- The entry of a sequence number leaves the list. -/
def Sup.removeEntry (s : Sup) (q : Word) : Sup :=
  { s with hold.entries := s.hold.entries.filter fun e => e.sequence != q }

/-- The entry has reached the hold age limit (R69). -/
def Sup.isAged (s : Sup) (e : HoldEntry) : Bool :=
  s.chart.holdMinutes != 0 && s.chart.holdMinutes * 60 ≤ s.since e.time

/-- The expiry of an entry that has reached the limit (R69); on the second of a minute boundary it comes after that boundary (log 62). -/
def Sup.expireEntry (s : Sup) (q : Word) : Sup :=
  match s.entryOf q with
  | some e =>
    if s.isAged e then
      (s.noteHold (s.removeEntry q)).report .expired (holdSubject e.port e.window) e.sequence
    else s
  | none => s

/-- The teardown of the entries a test admits, with a TORN report for each in sequence order (R70). -/
def Sup.tearDown (s : Sup) (test : HoldEntry → Bool) : Sup :=
  (s.hold.entries.filter test).foldl
    (fun t e => t.report .torn (holdSubject e.port e.window) e.sequence)
    (s.noteHold { s with hold.entries := s.hold.entries.filter fun e => !test e })

end Sys2Proof.Machine
end

