-- ==== Sys2Proof/Machine/Notices.lean ====
section
/-! DEFINITION. The notice stack controller (R144 to R156): raises, ends, expiries, settling, and the OVERLAY word. -/

namespace Sys2Proof.Machine

/-- The entry is dead: LIVE false, no expiry (R148, R149). -/
def NoticeEntry.kill (e : NoticeEntry) : NoticeEntry := { e with live := false, expiry := none }

def NoticeEntry.isLiveOf (e : NoticeEntry) (k : NoticeKind) : Bool := e.live && e.kind == k

/-- The live entry of a kind dies. -/
def killKind (k : NoticeKind) (stack : List NoticeEntry) : List NoticeEntry :=
  stack.map fun e => if e.isLiveOf k then e.kill else e

/-- The pops of R150: dead entries leave from the top, the end of the list. -/
def popDead (stack : List NoticeEntry) : List NoticeEntry := (stack.reverse.dropWhile fun e => !e.live).reverse

/-- A kind joins the pending set, kept in code order. -/
def pendingInsert : List NoticeKind → NoticeKind → List NoticeKind
  | [], k => [k]
  | j :: rest, k =>
    if k.code < j.code then k :: j :: rest else if k = j then j :: rest else j :: pendingInsert rest k

/-- The expiry a kind gets now: its duration from this moment, none for duration 0 (R147). -/
def Sup.noticeExpiryOf (s : Sup) (k : NoticeKind) : Option Nat :=
  let d := (s.chart.noticeEntry k).duration
  if d = 0 then none else some (s.after (periodsOfSeconds d))

def Sup.newNotice (s : Sup) (k : NoticeKind) : NoticeEntry := { kind := k, expiry := s.noticeExpiryOf k, live := true }

/-- Settling (R150): pops, then pushes from the pending set, lowest code first, while there is room. -/
def Sup.settleStack (s : Sup) : Sup :=
  let kept := popDead s.notice.stack
  let room := Config.stackPlaces - kept.length
  { s with
    notice.stack := kept ++ (s.notice.pending.take room).map s.newNotice
    notice.pending := s.notice.pending.drop room }

/-- OVERLAY is evaluated (R152); a value that differs is queued, at the adoption step of start-up too, since its address is known once a
charter is in force (R156; log 51). -/
def Sup.evaluateOverlay (s : Sup) : Sup :=
  let v := s.overlayValue
  if v = s.notice.overlay then s else { s with notice.overlay := v }.queueStatus 5

/-- What follows each event of the stack: settling, then OVERLAY (R145). -/
def Sup.settleNotices (s : Sup) : Sup := s.settleStack.evaluateOverlay

/-- The four cases of a raise (R147), before settling. -/
def Sup.takeRaise (s : Sup) (k : NoticeKind) : Sup :=
  if s.notice.stack.any (fun e => e.isLiveOf k) then
    { s with
      notice.stack := s.notice.stack.map fun e =>
        if e.isLiveOf k then { e with expiry := s.noticeExpiryOf k } else e }
  else if s.notice.pending.contains k then s
  else if Config.stackPlaces ≤ s.notice.stack.length then
    { s with notice.pending := pendingInsert s.notice.pending k }
  else { s with notice.stack := s.notice.stack ++ [s.newNotice k] }

/-- A raise of a kind is taken (R147, R145). -/
def Sup.raiseNotice (s : Sup) (k : NoticeKind) : Sup := (s.takeRaise k).settleNotices

/-- An end of a kind is taken (R148, R145). -/
def Sup.endNotice (s : Sup) (k : NoticeKind) : Sup :=
  { s with
    notice.stack := killKind k s.notice.stack
    notice.pending := s.notice.pending.filter fun j => j != k }.settleNotices

/-- The live entry of a kind that has an expiry. -/
def Sup.expiryOf (s : Sup) (k : NoticeKind) : Option Nat :=
  match s.notice.stack.find? (fun e => e.isLiveOf k) with
  | some e => e.expiry
  | none => none

/-- The expiry of a kind's live entry is reached (R149). -/
def Sup.expireNotice (s : Sup) (k : NoticeKind) : Sup :=
  match s.expiryOf k with
  | some t => { s.reach t with notice.stack := killKind k s.notice.stack }.settleNotices
  | none => s

/-- A winning class is handed over (R151). -/
def Sup.takeWinningClass (s : Sup) (c : Option Nat) : Sup :=
  { s with notice.winningClass := c }.evaluateOverlay

end Sys2Proof.Machine
end

