-- ==== Sys2Proof/Machine/Sources.lean ====
section
/-! DEFINITION. The source resolver and the switch sequencer (R121 to R143): signal debounce, claims, priority, standing,
resolution, the NO_SIGNAL condition, the requested mute, and what ticks and targets do to the sequencer. -/

namespace Sys2Proof.Machine

/-! ### The switch sequencer (R132 to R137) -/

def Sup.setLiveMute (s : Sup) (v : Mute) : Sup :=
  if s.seq.liveMute = v then s else { s with seq.liveMute := v }.queueStatus 4

/-- The sequencer takes a state; SOURCE is queued for a new value (R128). -/
def Sup.setSeqState (s : Sup) (st : SeqState) : Sup :=
  if s.seq.state = st then s else { s with seq.state := st }.queueStatus 18

/-- The subject of SWITCHED: the winning party in bits 6–4, the select in bits 3–0 (R207). -/
def switchedSubject (w : Option Claimant) (sel : Select) : Nat := partyCode w * 16 + sel.code

/-- The age of the winning claim in seconds, 0 for winner NONE (R137). -/
def Sup.winnerAge (s : Sup) : Nat :=
  match s.source.winner with
  | some c => s.since (s.source.claims.get c).time
  | none => 0

/-- LIVE_SELECT takes the target during a sequence, with its SWITCHED report (R134, R135, R137). -/
def Sup.switchSelect (s : Sup) : Sup :=
  ({ s with seq.liveSelect := s.source.target }.queueStatus 3).report .switched
    (switchedSubject s.source.winner s.source.target) (detailOf s.winnerAge)

/-- IDLE compares the target with LIVE_SELECT: a difference mutes the picture and enters MUTING (R133). -/
def Sup.recheckTarget (s : Sup) : Sup :=
  if s.source.target = s.seq.liveSelect then s else (s.setLiveMute .muted).setSeqState .muting

/-- The resolver hands a new target (R133 to R136). -/
def Sup.takeTarget (s : Sup) : Sup :=
  match s.seq.state with
  | .idle => s.recheckTarget
  | .settling =>
    if s.source.target = s.seq.liveSelect then s
    else { s.switchSelect with seq.counter := s.chart.settleCount }
  | .muting => s
  | .revealing => s

/-- The sequencer takes a frame tick (R133 to R136). -/
def Sup.tickSequencer (s : Sup) : Sup :=
  match s.seq.state with
  | .idle => s
  | .muting =>
    let t := if s.source.target = s.seq.liveSelect then s else s.switchSelect
    { t with seq.counter := s.chart.settleCount }.setSeqState .settling
  | .settling =>
    let n := s.seq.counter - 1
    let t := { s with seq.counter := n }
    if n = 0 then (t.setLiveMute s.source.requestedMute).setSeqState .revealing else t
  | .revealing =>
    if s.source.target = s.seq.liveSelect then s.setSeqState .idle
    else (s.setLiveMute .muted).setSeqState .muting

/-! ### Standing of a claim (R125, R126) -/

/-- The effective priority of a claim word (R125). -/
def effective (ch : Charter) (w : ClaimWord) : Nat :=
  let e := ch.priorityEntry w.cls
  if e.urgentMode then e.number / 2 * 2 + (if w.urgent then 1 else 0) else e.number

/-- The input map entry of a claim's source, when it names one that is valid. -/
def validEntry (ch : Charter) (w : ClaimWord) : Option InputEntry :=
  match w.source with
  | some n => if (ch.inputEntry n).valid then some (ch.inputEntry n) else none
  | none => none

/-- The permit query of test 3. -/
def Sup.claimantPermitted (s : Sup) : Claimant → Bool
  | .schedule => true
  | .panel => s.permits .panel
  | .lectern => s.permits .lectern
  | .campus => s.permits .campus
  | .service => s.permits .service

/-- Test 4: the source needs no signal, or its input's debounced state is PRESENT; SLATE and BLANK need none (R121). -/
def signalOk (signals : List Signal) (e : InputEntry) : Bool :=
  match e.select with
  | .input i => !e.needsSignal || (signals.getD i.val ⟨false, false, none⟩).present
  | .slate => true
  | .blank => true

/-- Tests 1 to 3 of R126. -/
def Sup.wouldCount (s : Sup) (c : Claimant) : Bool :=
  let w := (s.source.claims.get c).word
  (validEntry s.chart w).isSome && 0 < effective s.chart w && s.claimantPermitted c

/-- Test 4 of R126. -/
def Sup.hasSignal (s : Sup) (c : Claimant) : Bool :=
  match validEntry s.chart (s.source.claims.get c).word with
  | some e => signalOk s.source.signals e
  | none => false

/-- The claim counts in resolution (R126). -/
def Sup.counts (s : Sup) (c : Claimant) : Bool := s.wouldCount c && s.hasSignal c

/-- The claimants in the tie order (R124). -/
def tieOrder : List Claimant := [.schedule, .lectern, .panel, .campus, .service]

def Claimant.tie : Claimant → Nat
  | .schedule => 0
  | .lectern => 1
  | .panel => 2
  | .campus => 3
  | .service => 4

/-- One claim outranks another: higher effective priority, or equal and earlier in the tie order (R126). -/
def Sup.outranks (s : Sup) (c d : Claimant) : Bool :=
  let x := effective s.chart (s.source.claims.get c).word
  let y := effective s.chart (s.source.claims.get d).word
  y < x || (x == y && c.tie < d.tie)

/-! ### Resolution (R127 to R129) -/

/-- The counting claim that outranks every other counting claim. -/
def Sup.findWinner (s : Sup) : Option Claimant :=
  tieOrder.find? fun c => s.counts c && tieOrder.all fun d => d == c || !s.counts d || s.outranks c d

def Sup.targetFor (s : Sup) : Option Claimant → Select
  | some c =>
    match validEntry s.chart (s.source.claims.get c).word with
    | some e => e.select
    | none => .blank
  | none => .blank

def Sup.classFor (s : Sup) : Option Claimant → Option Nat
  | some c => some (s.source.claims.get c).word.cls
  | none => none

/-- The NO_SIGNAL condition (R129). -/
def Sup.noSignalHolds (s : Sup) : Bool :=
  tieOrder.any fun c =>
    s.wouldCount c && !s.hasSignal c && tieOrder.all fun d => !s.counts d || s.outranks c d

/-- The winner and the target take their values; SOURCE is queued when either is new (R128). -/
def Sup.setWinner (s : Sup) (w : Option Claimant) (t : Select) : Sup :=
  if s.source.winner = w && s.source.target = t then s
  else { s with source.winner := w, source.target := t }.queueStatus 18

/-- The NO_SIGNAL condition is judged: a change raises or ends its notice cause (R129). -/
def Sup.judgeNoSignal (s : Sup) : Sup :=
  if s.noSignalHolds = s.source.noSignal then s
  else if s.noSignalHolds then { s with source.noSignal := true }.raiseNotice .noSignal
  else { s with source.noSignal := false }.endNotice .noSignal

/-- A different winner, or a winner of a different class, is handed to the notice stack controller (R127). -/
def Sup.handClass (s : Sup) (oldWinner : Option Claimant) : Sup :=
  let c := s.classFor s.source.winner
  if s.source.winner = oldWinner && s.notice.winningClass = c then s else s.takeWinningClass c

/-- A resolution (R127): winner and target, a new target to the sequencer, a new class to the notices, NO_SIGNAL. -/
def Sup.resolve (s : Sup) : Sup :=
  let w := s.findWinner
  let t := s.targetFor w
  let s1 := s.setWinner w t
  let s2 := if t = s.source.target then s1 else s1.takeTarget
  (s2.handClass s.source.winner).judgeNoSignal

/-! ### Changes of claims, mute and signals -/

/-- The CLAIM offset of a claimant (R124). -/
def Claimant.offset : Claimant → Nat := Claimant.code

/-- A claims table entry takes a word, with the uptime as claim time; the mirror is queued if the word is new; a resolution
follows (R123, R124). -/
def Sup.setClaim (s : Sup) (c : Claimant) (w : ClaimWord) : Sup :=
  let old := (s.source.claims.get c).word
  let s1 := { s with source.claims := s.source.claims.set c { word := w, time := s.room.uptime } }
  (if old = w then s1 else s1.queueMirror .claim c.offset w.encode).resolve

/-- The requested mute takes a value: its mirror if new, and LIVE_MUTE at once in IDLE and REVEALING (R138). -/
def Sup.setRequestedMute (s : Sup) (v : Mute) : Sup :=
  let s1 :=
    if s.source.requestedMute = v then s
    else { s with source.requestedMute := v }.queueMirror .mute 0 (word v.code)
  match s.seq.state with
  | .idle => s1.setLiveMute v
  | .revealing => s1.setLiveMute v
  | .muting => s1
  | .settling => s1

def Sup.signal (s : Sup) (i : Fin 8) : Signal := s.source.signals.getD i.val ⟨false, false, none⟩

def Sup.setSignal (s : Sup) (i : Fin 8) (g : Signal) : Sup :=
  { s with source.signals := s.source.signals.set i.val g }

/-- The signal settle time in crystal periods; before a charter is in force it is a free value (log 15). -/
def Sup.settlePeriods (s : Sup) : Nat :=
  match s.charter with
  | some ch => periodsOfHalves ch.settleHalves
  | none => periodsOfHalves (1 + Config.earlySettleHalves s.ticket % 16)

/-- The line of an input takes a level (R122): an edge away from the debounced state starts an interval, an edge back
abandons it. -/
def Sup.signalLine (s : Sup) (i : Fin 8) (v : Bool) : Sup :=
  let g := s.signal i
  if g.line = v then s
  else if v = g.present then s.setSignal i { g with line := v, interval := none }
  else s.useTicket.setSignal i { g with line := v, interval := some (s.after s.settlePeriods) }

/-- An input's debounce interval ends: its state takes the line's value, and the resolver resolves (R122). -/
def Sup.signalSettled (s : Sup) (i : Fin 8) : Sup :=
  let g := s.signal i
  match g.interval with
  | some t => ((s.reach t).setSignal i { g with present := g.line, interval := none }).resolve
  | none => s

end Sys2Proof.Machine
end

