-- ==== Sys2Proof/Machine/Ports.lean ====
section
/-! DEFINITION. The port controllers' counts and responses (R3, R5, R9, R12, R13) and quarantine entry (R10). -/

namespace Sys2Proof.Machine

def Sup.port (s : Sup) (p : Port) : PortCtl := s.ports.get p

def Sup.setPort (s : Sup) (p : Port) (c : PortCtl) : Sup := { s with ports := s.ports.set p c }

/-- A port's fault count takes a value; a new value queues the word that carries it (R5). -/
def Sup.setFaults (s : Sup) (p : Port) (n : Nat) : Sup :=
  let c := s.port p
  if c.faults = n then s else (s.setPort p { c with faults := n }).queueStatus (faultWord p)

/-- The port controller gives a response and is idle (R2, R3). Every response but WAIT sets the consecutive-WAIT count to 0
(R12); a DONE sets the fault count to 0 (R9). -/
def Sup.respond (s : Sup) (p : Port) (r : Response) : Sup :=
  let c := s.port p
  let waits := match r with
    | .wait => c.waits
    | _ => 0
  let t := s.setPort p { c with collection := .idle, timer := none, response := some r, waits := waits }
  match r with
  | .done _ => t.setFaults p 0
  | _ => t

/-- A counted WAIT, or DENIED FULL with its report when the count reaches a retry limit other than 0 (R12). -/
def Sup.countedWait (s : Sup) (p : Port) : Sup :=
  let c := s.port p
  let n := min (c.waits + 1) 255
  let limit := s.chart.port.retryLimit
  let t := s.setPort p { c with waits := n }
  if limit != 0 && limit ≤ n then ((t.reportPlain .retryLimit p.code).raise .port).respond p (.denied .full)
  else t.respond p .wait

/-- Quarantine entry (R10). -/
def Sup.enterQuarantine (s : Sup) (p : Port) : Sup :=
  let s1 := (s.setPort p { s.port p with quarantined := true }).queueStatus 21
  let s2 := (s1.reportPlain .quarantined p.code).raise .port
  (s2.tearDown fun e => e.port == p).setClaim p.claimant .withdraw

/-- The beat timeout ends a write being collected (R8): the response, the fault count and the report by the admission state
and the port state; a count at the fault limit with isolation enabled quarantines the port (R9, R10). -/
def Sup.endCollection (s : Sup) (p : Port) : Sup :=
  let c := s.port p
  match s.admission, c.quarantined with
  | .stalled, _ => s.respond p .wait
  | .admitting, true => s.respond p (.denied .quarantined)
  | .admitting, false =>
    let n := min (c.faults + 1) 15
    let t := ((s.respond p (.denied .timeout)).setFaults p n).reportPlain .beatTimeout p.code
    if s.chart.port.isolation && s.chart.port.faultLimit ≤ n then t.enterQuarantine p else t

/-- PORT_RELEASE of a named port (R13). -/
def Sup.releasePort (s : Sup) (p : Port) : Sup :=
  if (s.port p).quarantined then
    (((s.setPort p { s.port p with quarantined := false, faults := 0, waits := 0 }).queueStatus 21).queueStatus
      (faultWord p)).reportPlain .released p.code
  else s.setFaults p 0

end Sys2Proof.Machine
end

