-- ==== Sys2Proof/Machine/Geometry.lean ====
section
/-! DEFINITION. The geometry unit (R158 to R168): trim, target, slew, presets, and the clamp of a reload. -/

namespace Sys2Proof.Machine

def Sup.geoParams (s : Sup) : GeometryParams := s.chart.geometry

/-- Mirror writes of the trim coordinates at some offsets. -/
def Sup.queueTrim (s : Sup) (offsets : List Nat) : Sup :=
  offsets.foldl (fun t i => t.queueMirror .geometry i (coordWord (t.geo.trim.at i))) s

/-- The live corners take values; each coordinate with a new value is queued (R158). -/
def Sup.setLive (s : Sup) (c : Corners) : Sup :=
  { s with geo.live := c }.queueStatuses ((s.geo.live.changed c).map (· + 6))

/-- The slew state: SLEWING while any live coordinate differs from its target coordinate (R158). -/
def Sup.judgeSlew (s : Sup) : Sup := { s with geo.slewing := s.geo.differs }

/-- The target is formed from the trim (R159), and the slew state set. -/
def Sup.retarget (s : Sup) : Sup := { s with geo.target := targetOf s.geoParams s.geo.trim }.judgeSlew

/-- The trim takes a value: the mirror of each coordinate with a new value, then the target (R158, R160, R164). -/
def Sup.setTrim (s : Sup) (t : Corners) : Sup :=
  ({ s with geo.trim := t }.queueTrim (s.geo.trim.changed t)).retarget

/-- A timetabled slot's preset 1 to 4 replaces the trim (R164). -/
def Sup.takePreset (s : Sup) (n : Nat) : Sup :=
  if n = 0 then s else s.setTrim (s.geoParams.presets.getD (n - 1) (.all 0))

/-- One coordinate moves toward its target by the step, or by what remains (R161). -/
def slewTo (step : Nat) (live target : Int) : Int :=
  if live < target then min (live + step) target else max (live - step) target

/-- Where the live corners are after a tick: at the target at once while muted or with step 0 (R161). -/
def slewed (g : GeometryParams) (muted : Bool) (live target : Corners) : Corners :=
  if muted || g.slewStep == 0 then target else .build fun i => slewTo g.slewStep (live.at i) (target.at i)

/-- The geometry unit takes a frame tick, with LIVE_MUTE as it reads it (R161, R162). -/
def Sup.tickGeometry (s : Sup) (mute : Mute) : Sup :=
  if s.geo.slewing then
    (s.setLive (slewed s.geoParams (mute == .muted) s.geo.live s.geo.target)).judgeSlew
  else s

/-- The end of a successful reload (R166): the trim kept or reset, the live corners clamped, the slew state set. -/
def Sup.reloadGeometry (s : Sup) : Sup :=
  let s1 := if orderOk s.geoParams (targetOf s.geoParams s.geo.trim) then s.retarget else s.setTrim (.all 0)
  (s1.setLive (clampCorners s.geoParams s1.geo.live)).judgeSlew

/-- A reload finds the trim failing the new order check (R166). -/
def Sup.trimFails (s : Sup) : Bool := !orderOk s.geoParams (targetOf s.geoParams s.geo.trim)

end Sys2Proof.Machine
end

