-- ==== Sys2Proof/Machine/Lamps.lean ====
section
/-! DEFINITION. The lamp controller (R76 to R99) and the wear unit's part in each lamp event (R105 to R114): demand, strike
decisions, lamp state changes, failure and transfer, life stages, record flushes and the shutdown record. -/

namespace Sys2Proof.Machine

/-! ### Small updates -/

def Sup.setCell (s : Sup) (l : Lamp) (c : LampCell) : Sup := { s with lamp.lamps := s.lamp.lamps.set l c }

def Sup.setWear (s : Sup) (l : Lamp) (c : WearCell) : Sup := { s with wear.lamps := s.wear.lamps.set l c }

/-- The command of a lamp takes a value; a new value queues its command word (R85). -/
def Sup.setCommand (s : Sup) (l : Lamp) (v : LightLevel) : Sup :=
  let c := s.lamp.lamps.get l
  if c.command = v then s else (s.setCell l { c with command := v }).queueStatus l.code

/-! ### Retained records -/

/-- A flush (R111): the record's eight words with the live values join the control queue, by rising address (log 53), and the flush
count is 0. A lamp that has loaded no is not flushed. -/
def Sup.flush (s : Sup) (l : Lamp) : Sup :=
  let c := s.wear.lamps.get l
  if c.loaded then
    (s.setWear l { c with flushCount := 0, record := lampRecordWords l c }).queueRun (lampRecordBase l)
      (lampRecordWords l c)
  else s

/-- The shutdown record is rewritten with the hot set as the lamp states stand (R114). -/
def Sup.rewriteShutdown (s : Sup) : Sup :=
  let t := { s with wear.hot := s.hotSet }
  t.queueRun shutdownBase (shutdownWords t.wear)

/-- A lamp takes a state: LAMP_STATE is queued for a new value (R85), and entering or leaving the hot set then rewrites the
shutdown record (R114). The order of the control writes of a lamp event is the model's: LAMP_STATE, the shutdown record, the command word,
the flush (log 53). -/
def Sup.setLampState (s : Sup) (l : Lamp) (st : LampState) : Sup :=
  let c := s.lamp.lamps.get l
  let t := s.setCell l { c with state := st }
  let u := if c.state = st then t else t.queueStatus 2
  if c.state.isHot = st.isHot then u else u.rewriteShutdown

/-! ### NO_LAMP (R98) -/

/-- The NO_LAMP condition is judged: the flag follows it, with the report, the causes and LAMP_STATE at a change. -/
def Sup.judgeNoLamp (s : Sup) : Sup :=
  if s.noLampHolds = s.lamp.noLamp then s
  else if s.noLampHolds then
    ((({ s with lamp.noLamp := true }.report .noLamp noSubject (word s.lamp.demand.level.code)).raise .lamp).raiseNotice
      .noLamp).queueStatus 2
  else ({ s with lamp.noLamp := false }.endNotice .noLamp).queueStatus 2

/-! ### Life stages (R108, R99, R109) -/

/-- A lamp enters a stage. `decide` is the strike decision that an entry into SPENT makes with the demand ON (R99). -/
def Sup.enterStage (decide : Sup → Sup) (s : Sup) (l : Lamp) (st : LifeStage) : Sup :=
  let c := s.wear.lamps.get l
  let hours := detailOf (c.wear / 36000)
  let s1 := s.setWear l { c with stage := st }
  let s2 := s1.report (if st = .spent then .spent else .worn) l.code hours
  let s3 := if st = .spent then s2.raise .lamp else s2
  let s4 := (s3.raiseNotice .lampWorn).queueStatus 2
  let s5 := if st = .spent && s4.lamp.demand.level.isOn then decide s4 else s4.judgeNoLamp
  s5.flush l

/-- The life stage is judged from the wear: the lamp enters each later stage it passes, in order (R108). -/
def Sup.judgeStage (decide : Sup → Sup) (s : Sup) (l : Lamp) : Sup :=
  match (s.wear.lamps.get l).stage, stageOf s.chart.lamp (s.wear.lamps.get l).wear with
  | .fresh, .worn => s.enterStage decide l .worn
  | .fresh, .spent => (s.enterStage decide l .worn).enterStage decide l .spent
  | .worn, .spent => s.enterStage decide l .spent
  | _, _ => s

/-! ### Wear counts (R105, R107): counters stop at their largest value -/

def wearMax : Nat := 4294967295

/-- Use is added to a lamp's live counters. -/
def WearCell.add (c : WearCell) (wear lit : Nat) : WearCell :=
  { c with wear := min (c.wear + wear) wearMax, litSeconds := min (c.litSeconds + lit) wearMax }

def Sup.countFailure (s : Sup) (l : Lamp) : Sup :=
  let c := s.wear.lamps.get l
  if c.loaded then s.setWear l { c with strikeFailures := min (c.strikeFailures + 1) 255 } else s

def Sup.countDropout (s : Sup) (l : Lamp) : Sup :=
  let c := s.wear.lamps.get l
  if c.loaded then s.setWear l { c with dropouts := min (c.dropouts + 1) 255 } else s

/-! ### Strikes (R81 to R83, R86) -/

/-- STRIKING to WARMING (R87). -/
def Sup.enterWarming (s : Sup) (l : Lamp) : Sup :=
  let c := s.lamp.lamps.get l
  (s.setCell l { c with timer := some (s.after (periodsOfSeconds s.chart.lamp.warmUp)) }).setLampState l .warming

/-- A strike decision strikes a lamp (R86): STRIKING, command NORMAL, strike timer, STRUCK report, the strike counted with
its wear of 1800 (R107); an asserted LAMPOK takes it to WARMING at once. -/
def Sup.strike (decide : Sup → Sup) (s : Sup) (l : Lamp) : Sup :=
  let c := s.lamp.lamps.get l
  let s1 := s.setCell l { c with timer := some (s.after (periodsOfSeconds s.chart.lamp.strike)) }
  let s2 := ((s1.setLampState l .striking).setCommand l .normal).report .struck l.code (detailOf c.attempts)
  let w := s2.wear.lamps.get l
  let s3 := s2.setWear l { w.add 1800 0 with strikes := min (w.strikes + 1) 65535 }
  let s4 := if s3.lines.lampok.get l then s3.enterWarming l else s3
  s4.judgeStage decide l

/-- The lamp is DARK and usable. -/
def Sup.strikeable (s : Sup) (l : Lamp) : Bool := (s.lamp.lamps.get l).state == .dark && s.usable l

/-- The lamp of lower wear, lamp A on a tie (R83). -/
def Sup.lowerWear (s : Sup) : Lamp := if s.wear.lamps.b.wear < s.wear.lamps.a.wear then .b else .a

/-- Of the lamps a test admits: the one, or of two the one of lower wear. -/
def Sup.pick (s : Sup) (test : Lamp → Bool) : Option Lamp :=
  if test .a && test .b then some s.lowerWear else if test .a then some .a else if test .b then some .b else none

/-- The duty lamp after steps 1 and 2 of R83. -/
def Sup.chooseDuty (s : Sup) : Option Lamp :=
  let cooling := fun l => s.usable l && (s.lamp.lamps.get l).state == .cooling
  let kept :=
    match s.lamp.duty with
    | some l => if s.serves l || s.strikeable l || cooling l then some l else none
    | none => none
  match kept with
  | some l => some l
  | none =>
    match s.pick s.serves with
    | some l => some l
    | none =>
      match s.pick s.strikeable with
      | some l => some l
      | none => s.pick cooling

/-- A strike decision (R81 to R83), then NO_LAMP is judged. In DUAL mode lamp A is struck before lamp B (log 46). A strike can make its lamp SPENT, which is a further decision
(R99); a lamp enters SPENT once, so the depth never passes 3. -/
def Sup.decideDeep : Nat → Sup → Sup
  | 0, s => s
  | n + 1, s =>
    let t :=
      if !s.lamp.demand.level.isOn then { s with lamp.duty := none }
      else if s.chart.lamp.dual then
        let s0 := { s with lamp.duty := none }
        let s1 := if s0.strikeable .a then s0.strike (Sup.decideDeep n) .a else s0
        if s1.strikeable .b then s1.strike (Sup.decideDeep n) .b else s1
      else
        let s0 := { s with lamp.duty := s.chooseDuty }
        match s0.lamp.duty with
        | some l => if (s0.lamp.lamps.get l).state = .dark then s0.strike (Sup.decideDeep n) l else s0
        | none => s0
    t.judgeNoLamp

def Sup.strikeDecision (s : Sup) : Sup := Sup.decideDeep 4 s

/-! ### Cooling (R90), failure and transfer (R96, R97) -/

/-- A lamp enters COOLING: command OFF, full cooldown timer, the mark if it is due. -/
def Sup.enterCooling (s : Sup) (l : Lamp) (mark : Bool) : Sup :=
  let c := s.lamp.lamps.get l
  let s1 := s.setCell l { c with timer := some (s.after (periodsOfSeconds s.chart.lamp.cooldown)), marked := mark }
  (s1.setLampState l .cooling).setCommand l .off

/-- The demand takes a lamp to COOLING: LAMP_OFF with the state left, and the flush of the entry (R90, R107). -/
def Sup.takeDown (s : Sup) (l : Lamp) (left : LampState) : Sup :=
  ((s.enterCooling l false).report .lampOff l.code (word left.code)).flush l

/-- The transfer of R97, made when the mark is set on the duty lamp in ALTERNATE mode. -/
def Sup.transfer (s : Sup) (marked : Lamp) : Sup :=
  if !s.chart.lamp.dual && s.lamp.duty == some marked && s.lamp.demand.level.isOn && s.canServe marked.other then
    ({ s with lamp.duty := some marked.other }.report .transfer marked.other.code (word marked.code)).raise .lamp
  else s

/-- A strike failure or dropout: the attempt count rises, the lamp cools, its report is made, the failure is counted and the
record flushed; a count at the limit marks the lamp, transfers and takes a strike decision (R93, R95, R96). -/
def Sup.failAttempt (s : Sup) (l : Lamp) (k : ReportKind) (count : Sup → Sup) : Sup :=
  let c := s.lamp.lamps.get l
  let n := c.attempts + 1
  let mark := s.chart.lamp.attempts ≤ n
  let s1 := (s.setCell l { c with attempts := n }).enterCooling l mark
  let s2 := (count (s1.report k l.code (detailOf n))).flush l
  if mark then (s2.transfer l).strikeDecision else s2.judgeNoLamp

/-! ### The demand (R76 to R78, R92) -/

/-- What a demand that goes OFF does to a lamp (R92). -/
def Sup.demandOff (s : Sup) (l : Lamp) : Sup :=
  match (s.lamp.lamps.get l).state with
  | .striking => s.takeDown l .striking
  | .lit => s.takeDown l .lit
  | _ => s

/-- A LIT lamp takes the demand level (R89). -/
def Sup.followLevel (s : Sup) (l : Lamp) : Sup :=
  if (s.lamp.lamps.get l).state = .lit then s.setCommand l s.lamp.demand.level else s

/-- The demand is set to a level, with the uptime as set time (R76, R77). Lamp A is taken down, and takes the level, before lamp B
(log 46). -/
def Sup.setDemand (s : Sup) (v : LightLevel) : Sup :=
  let old := s.lamp.demand.level
  let s1 := { s with lamp.demand := { level := v, setTime := s.room.uptime } }
  if old = v then s1
  else
    let s2 := s1.queueMirror .light 0 (word v.code)
    if !v.isOn then ({ (s2.demandOff .a).demandOff .b with lamp.duty := none }).judgeNoLamp
    else if old.isOn then ((s2.followLevel .a).followLevel .b).judgeNoLamp
    else s2.strikeDecision

/-- SET_IF_OFF (R78). -/
def Sup.setIfOff (s : Sup) (v : LightLevel) : Sup := if s.lamp.demand.level = .off then s.setDemand v else s

/-- CLEAR_IF_UNCHANGED (R78): the two uptimes are compared as plain numbers, a wrap between them disregarded (log 47). -/
def Sup.clearIfUnchanged (s : Sup) (slotEnd : Uptime) : Sup :=
  if s.lamp.demand.setTime.toNat ≤ slotEnd.toNat then s.setDemand .off else s

/-! ### Timers and lines of a lamp (R87, R88, R91, R93, R95) -/

/-- The strike timer expires (R93). -/
def Sup.strikeTimedOut (s : Sup) (l : Lamp) : Sup := s.failAttempt l .strikeFail fun t => t.countFailure l

/-- LAMPOK becomes asserted (R87). -/
def Sup.lampokUp (s : Sup) (l : Lamp) : Sup :=
  let s1 := { s with lines.lampok := s.lines.lampok.set l true }
  if (s1.lamp.lamps.get l).state = .striking then s1.enterWarming l else s1

/-- LAMPOK becomes deasserted: a dropout in WARMING and LIT (R87, R95). -/
def Sup.lampokDown (s : Sup) (l : Lamp) : Sup :=
  let s1 := { s with lines.lampok := s.lines.lampok.set l false }
  match (s1.lamp.lamps.get l).state with
  | .warming => s1.failAttempt l .dropout fun t => t.countDropout l
  | .lit => s1.failAttempt l .dropout fun t => t.countDropout l
  | _ => s1

/-- The warm-up ends: LIT, attempt count 0, LIT report; `announce` is the hold table's release of its LIT entries; then the
demand at that moment sets the command or takes the lamp down (R88). -/
def Sup.warmedUp (announce : Sup → Sup) (s : Sup) (l : Lamp) : Sup :=
  let c := s.lamp.lamps.get l
  let s1 := (s.setCell l { c with timer := none, attempts := 0 }).setLampState l .lit
  let s2 := announce (s1.report .lit l.code (word s.lamp.demand.level.code))
  let s3 :=
    if (s2.lamp.lamps.get l).state != .lit then s2
    else if s2.lamp.demand.level.isOn then s2.setCommand l s2.lamp.demand.level
    else s2.takeDown l .warming
  s3.judgeNoLamp

/-- The cooldown ends: DARK, or FAILED for a marked lamp, then a strike decision (R91, R97). -/
def Sup.cooledDown (s : Sup) (l : Lamp) : Sup :=
  let c := s.lamp.lamps.get l
  let s1 := s.setCell l { c with timer := none, marked := false }
  if c.marked then
    (((((s1.setLampState l .failed).report .failed l.code (detailOf c.attempts)).raise .lamp).raiseNotice
      .lampFailed).flush l).strikeDecision
  else (s1.setLampState l .dark).strikeDecision

/-! ### Service records (R100, R101, R113) -/

/-- The LAMP_FAILED cause ends when neither lamp is FAILED (R97). -/
def Sup.endLampFailed (s : Sup) : Sup := if s.anyFailed then s else s.endNotice .lampFailed

/-- LAMP_CLEAR of a lamp that may be cleared (R100): FAILED becomes DARK, a marked COOLING lamp loses its mark. -/
def Sup.clearLamp (s : Sup) (l : Lamp) : Sup :=
  let c := s.lamp.lamps.get l
  if c.state = .failed then
    (((s.setCell l { c with attempts := 0 }).setLampState l .dark).endLampFailed.report .cleared l.code
      (word LampState.failed.code)).strikeDecision
  else
    ((s.setCell l { c with attempts := 0, marked := false }).report .cleared l.code
      (word LampState.cooling.code)).strikeDecision

/-- LAMP_REPLACE of a lamp in DARK or FAILED (R101, R113). Where both causes end, LAMP_FAILED ends first (log 48). -/
def Sup.replaceLamp (s : Sup) (l : Lamp) (tag : Word) : Sup :=
  let c := s.lamp.lamps.get l
  let s1 := s.setCell l { c with attempts := 0, marked := false, recordValid := true }
  let s2 := (s1.setLampState l .dark).setWear l { WearCell.reset with tag := tag, loaded := true }
  let s3 := ((s2.flush l).queueStatus 2).endLampFailed
  let s4 := if s3.anyWorn then s3 else s3.endNotice .lampWorn
  (s4.report .replaced l.code tag).strikeDecision

/-! ### Second ticks (R106) -/

/-- The wear and lit seconds a second adds to a lamp, by its state and command. -/
def LampCell.use (c : LampCell) : Nat × Nat :=
  match c.state with
  | .striking => (10, 0)
  | .warming => (10, 0)
  | .lit =>
    match c.command with
    | .off => (0, 1)
    | .eco => (6, 1)
    | .normal => (10, 1)
    | .boost => (13, 1)
  | _ => (0, 0)

/-- A second is added to a lamp that has loaded yes, by the state and command in `c`; a flush count of 360 flushes. -/
def Sup.accrue (s : Sup) (l : Lamp) (c : LampCell) : Sup :=
  let w := s.wear.lamps.get l
  if w.loaded then
    let t := w.add c.use.1 c.use.2
    if c.state = .dark then s.setWear l t
    else if w.flushCount + 1 < 360 then s.setWear l { t with flushCount := w.flushCount + 1 }
    else (s.setWear l t).flush l
  else s

/-- Wear accrual of both lamps, then their life stages (R106, R108): both seconds are added before either stage is judged, and lamp A
goes before lamp B in each (log 46). -/
def Sup.accrueBoth (s : Sup) : Sup :=
  let a := s.lamp.lamps.a
  let b := s.lamp.lamps.b
  (((s.accrue .a a).accrue .b b).judgeStage Sup.strikeDecision .a).judgeStage Sup.strikeDecision .b

end Sys2Proof.Machine
end

