-- ==== Sys2Proof/Machine/Locks.lean ====
section
/-! DEFINITION. The lock controller (R41 to R54): contributions, level changes and their announcements, the key and the
takeover. `release` is the hold table's release at an announcement (R63). -/

namespace Sys2Proof.Machine

/-- The notice kind whose cause a level is (R48). -/
def LockLevel.notice : LockLevel → Option NoticeKind
  | .exam => some .examLock
  | .service => some .serviceTakeover
  | _ => none

def Sup.endLevelNotice (s : Sup) (l : LockLevel) : Sup :=
  match l.notice with
  | some k => s.endNotice k
  | none => s

def Sup.raiseLevelNotice (s : Sup) (l : LockLevel) : Sup :=
  match l.notice with
  | some k => s.raiseNotice k
  | none => s

/-- The change is announced to the notice stack controller (R48): the old level's cause ends, the new level's is raised. A
level change that a released write made meanwhile has announced itself: a cause is not ended while its level is in force
again, and not raised when its level has been left (log 32). -/
def Sup.announceNotices (s : Sup) (old new : LockLevel) : Sup :=
  let t := if s.lock.level = old then s else s.endLevelNotice old
  if t.lock.level = new then t.raiseLevelNotice new else t

/-- A contribution has taken a new value: the level is recomputed; LOCK is queued; a new level is reported and announced
in the order of R47. -/
def Sup.recompute (release : Sup → Sup) (s : Sup) : Sup :=
  let new := s.lock.highest
  let old := s.lock.level
  if new = old then s.queueStatus 17
  else
    let s1 := { s with lock.level := new }.queueStatus 17
    let s2 := release (s1.report .lockChanged new.code (word old.code))
    s2.resolve.announceNotices old new

/-- The schedule controller hands a contribution; a value in force changes nothing (R43). -/
def Sup.handContribution (release : Sup → Sup) (s : Sup) (v : LockLevel) : Sup :=
  if v = s.lock.schedule then s else { s with lock.schedule := v }.recompute release

/-- The KEY line takes a level (R44): an edge away from the debounced state starts a 50 ms interval, an edge back abandons
it. -/
def Sup.keyLine (s : Sup) (v : Bool) : Sup :=
  if s.lines.key = v then s
  else
    { s with
      lines.key := v
      lock.keyInterval := if v = s.lock.key then none else some (s.after fiftyMillis) }

/-- The key debounce interval ends: the debounced state takes the line's value (R44). -/
def Sup.keySettled (release : Sup → Sup) (s : Sup) : Sup :=
  match s.lock.keyInterval with
  | some t => { s.reach t with lock.key := s.lines.key, lock.keyInterval := none }.recompute release
  | none => s

/-- TAKEOVER START (R45): the timer runs from now; an inactive takeover becomes active. -/
def Sup.startTakeover (release : Sup → Sup) (s : Sup) : Sup :=
  let t := { s with lock.takeover := some (s.after (periodsOfSeconds (s.chart.takeoverMinutes * 60))) }
  if s.lock.takeover.isSome then t else t.recompute release

/-- TAKEOVER END (R45): an active takeover becomes inactive. -/
def Sup.endTakeover (release : Sup → Sup) (s : Sup) : Sup :=
  if s.lock.takeover.isSome then { s with lock.takeover := none }.recompute release else s

/-- The takeover timer reaches its end time (R46). -/
def Sup.takeoverTimedOut (release : Sup → Sup) (s : Sup) : Sup :=
  match s.lock.takeover with
  | some t => { s.reach t with lock.takeover := none }.recompute release
  | none => s

end Sys2Proof.Machine
end

