-- ==== Sys2Proof/Machine/Schedule.lean ====
section
/-! DEFINITION. The room clock and the schedule controller (R169 to R188): entries and their checks, slots, prewarm,
warning, grace, boundaries, clock sets, loads and the disable. `release` is the hold table's release at a level change. -/

namespace Sys2Proof.Machine

def weekMinutes : Nat := 10080
def weekSeconds : Nat := 604800

/-! ### Entries (R175, R205) -/

/-- The check an entry fails first (R175); detail codes of R207. -/
inductive LoadFault
  | parity | range | order
  deriving DecidableEq, Repr

def LoadFault.code : LoadFault → Nat
  | .parity => 1
  | .range => 2
  | .order => 3

def lockLevelOf? : Nat → Option LockLevel
  | 0 => some .unlocked
  | 1 => some .lectern
  | 2 => some .exam
  | _ => none

/-- A loaded claim word: WITHDRAW, or a source the input map makes valid (R175). -/
def loadedClaim? (ch : Charter) (w : Word) : Option ClaimWord :=
  match claimOfWord? w with
  | some c =>
    match c.source with
    | some n => if (ch.inputEntry n).valid then some c else none
    | none => some c
  | none => none

/-- An entry from its eight words, when every field is in range; reserved bits are disregarded. -/
def entryOfWords? (ch : Charter) (ws : List Word) : Option SlotEntry :=
  let startMinute := (wordAt ws 0).toNat
  let endMinute := (wordAt ws 1).toNat
  let w2 := wordAt ws 2
  let w4 := wordAt ws 4
  let policy := bits w4 1 0
  let lead := bits w4 12 8
  let warning := (wordAt ws 5).toNat
  match lockLevelOf? (bits w2 1 0), loadedClaim? ch (wordAt ws 3) with
  | some level, some claim =>
    if startMinute ≤ 10079 && startMinute < endMinute && endMinute ≤ 10080 && (policy == 0 || lead ≤ 30) &&
        bits w2 9 8 ≤ 1 && bits w2 14 12 ≤ 4 && warning ≤ 15 then
      some
        { startMinute := startMinute, endMinute := endMinute, level := level, claim := claim
          light := if policy = 0 then none else some (.ofCode policy), lead := lead, grace := bits w2 9 8 == 1
          preset := bits w2 14 12, warning := warning }
    else none
  | _, _ => none

/-- One entry judged, after the entry before it. -/
def judgeEntry (ch : Charter) (previous : Option SlotEntry) (rs : List ReadWord) : Except LoadFault SlotEntry :=
  if rs.any (·.bad) then .error .parity
  else
    match entryOfWords? ch (rs.map (·.value)) with
    | none => .error .range
    | some e =>
      match previous with
      | none => .ok e
      | some d => if d.startMinute < e.startMinute && d.endMinute ≤ e.startMinute then .ok e else .error .order

/-- `n` entries judged in index order from `index`: all of them, or the first bad one with its failure (R175). -/
def judgeEntries (ch : Charter) : Nat → Nat → Option SlotEntry → List ReadWord → Except (Nat × LoadFault) (List SlotEntry)
  | 0, _, _, _ => .ok []
  | n + 1, index, previous, rs =>
    match judgeEntry ch previous (rs.take 8) with
    | .error f => .error (index, f)
    | .ok e =>
      match judgeEntries ch n (index + 1) (some e) (rs.drop 8) with
      | .error f => .error f
      | .ok es => .ok (e :: es)

/-! ### Slots (R177) -/

def SlotEntry.covers (e : SlotEntry) (m : Nat) : Bool := e.startMinute ≤ m && m < e.endMinute

def Sup.minute (s : Sup) : Nat := s.room.timeOfWeek / 60

/-- The index of the slot current at a minute (R177). -/
def Sup.slotAt (s : Sup) (m : Nat) : Option Nat :=
  if s.sched.state = .enabled && s.room.isSet then s.sched.loaded.findIdx? (fun e => e.covers m) else none

def Sup.entry (s : Sup) (i : Nat) : Option SlotEntry := s.sched.loaded[i]?

/-- Minutes from one minute of week forward to another. -/
def minutesTo (fromMinute toMinute : Nat) : Nat := (toMinute + weekMinutes - fromMinute) % weekMinutes

/-- The entry's prewarm minute: the first minute from its lead's start on, up to its own start, that lies in a gap (R177). -/
def Sup.prewarmMinute (s : Sup) (e : SlotEntry) : Option Nat :=
  match e.light with
  | none => none
  | some _ =>
    let first := (e.startMinute + weekMinutes - e.lead) % weekMinutes
    ((List.range e.lead).map fun k => (first + k) % weekMinutes).find? fun m =>
      s.sched.loaded.all fun d => !d.covers m

/-- The entry's warning minute (R177). -/
def SlotEntry.warningMinute (e : SlotEntry) : Option Nat :=
  if e.warning = 0 then none else some (max (e.endMinute - e.warning) e.startMinute)

/-- The next entry to start after a minute that lies in a gap. -/
def Sup.nextEntry (s : Sup) (m : Nat) : Option SlotEntry :=
  s.sched.loaded.foldl
    (fun best e =>
      match best with
      | none => some e
      | some b => if minutesTo m e.startMinute < minutesTo m b.startMinute then some e else some b)
    none

/-! ### Actions (R179 to R183) -/

/-- How a slot was entered (R207). -/
inductive Entered
  | boundary | clockSet | enable | startUp
  deriving DecidableEq, Repr

def Entered.code : Entered → Nat
  | .boundary => 0
  | .clockSet => 1
  | .enable => 2
  | .startUp => 3

/-- Why a slot ended (R207). -/
inductive Ended
  | boundary | clockSet | disable
  deriving DecidableEq, Repr

def Ended.code : Ended → Nat
  | .boundary => 0
  | .clockSet => 1
  | .disable => 2

/-- SLOT_ENDING is raised (R182). -/
def Sup.warn (s : Sup) : Sup := { s with sched.warned := true }.raiseNotice .slotEnding

/-- SLOT_ENDING is ended (R182). -/
def Sup.unwarn (s : Sup) : Sup := { s with sched.warned := false }.endNotice .slotEnding

/-- The warning minute of an entry is at or before a minute. -/
def SlotEntry.warningDue (e : SlotEntry) (m : Nat) : Bool :=
  match e.warningMinute with
  | some w => w ≤ m
  | none => false

def Sup.lightUp (s : Sup) (e : SlotEntry) : Sup :=
  match e.light with
  | some v => s.setIfOff v
  | none => s

/-- The start actions of an entry (R179); at start-up the preset and the light request are left out (R188). -/
def Sup.startSlot (s : Sup) (i : Nat) (e : SlotEntry) (how : Entered) : Sup :=
  let s1 := { s with sched.current := some i, sched.warned := false, sched.grace := none }
  let s2 := s1.setClaim .schedule e.claim
  let s3 := if how = .startUp then s2 else (s2.takePreset e.preset).lightUp e
  let s4 := s3.report .slotStart i (word how.code)
  if e.warningDue s4.minute then s4.warn else s4

/-- Grace starts (R183). -/
def Sup.startGrace (s : Sup) : Sup :=
  { s with
    sched.grace :=
      some
        { endUptime := s.room.uptime + BitVec.ofNat 32 (s.chart.graceMinutes * 60), slotEnd := s.room.uptime } }

/-- The end actions of the current slot (R180). -/
def Sup.endSlot (s : Sup) (i : Nat) (why : Ended) (withGrace : Bool) : Sup :=
  let s1 := s.setClaim .schedule .withdraw
  let s2 := if s1.sched.warned then s1.unwarn else s1
  let s3 := { s2 with sched.current := none }.report .slotEnd i (word why.code)
  match s3.entry i with
  | some e => if e.grace && withGrace then s3.startGrace else s3
  | none => s3

/-- The prewarm of an entry (R181). -/
def Sup.prewarm (s : Sup) (e : SlotEntry) : Sup := s.lightUp e

/-- The contribution that a set of actions leaves: the level of the current slot, or OPEN. -/
def Sup.slotLevel (s : Sup) : LockLevel :=
  match s.sched.current with
  | some i =>
    match s.entry i with
    | some e => e.level
    | none => .unlocked
  | none => .unlocked

/-- SCHED is queued if the current slot differs from `old`. -/
def Sup.noteSlot (s : Sup) (old : Option Nat) : Sup := if s.sched.current = old then s else s.queueStatus 20

/-- The end of a set of actions: the contribution is handed and SCHED follows the slot (R43, R178, R185). -/
def Sup.finishSet (release : Sup → Sup) (s : Sup) (old : Option Nat) : Sup :=
  (s.handContribution release s.slotLevel).noteSlot old

/-! ### Minute boundaries (R178) -/

def Sup.endsAt (s : Sup) (i m : Nat) : Bool :=
  match s.entry i with
  | some e => e.endMinute == m || (e.endMinute == weekMinutes && m == 0)
  | none => false

def Sup.startsAt (s : Sup) (m : Nat) : Option Nat := s.sched.loaded.findIdx? fun e => e.startMinute == m

/-- Step 1: the end actions of a slot that ends now, with grace unless another starts now (R180). -/
def Sup.boundaryEnd (s : Sup) (m : Nat) : Sup :=
  match s.sched.current with
  | some i => if s.endsAt i m then s.endSlot i .boundary (s.startsAt m).isNone else s
  | none => s

/-- Step 2: the start actions of an entry that starts now. -/
def Sup.boundaryStart (s : Sup) (m : Nat) : Sup :=
  match s.startsAt m with
  | some i =>
    match s.entry i with
    | some e => s.startSlot i e .boundary
    | none => s
  | none => s

/-- Step 3: the prewarm of the next entry, when no slot is current and its prewarm minute is now. -/
def Sup.boundaryPrewarm (s : Sup) (m : Nat) : Sup :=
  match s.sched.current, s.nextEntry m with
  | none, some e => if s.prewarmMinute e = some m then s.prewarm e else s
  | _, _ => s

/-- Step 4: the warning of the current slot, when its warning minute is now. -/
def Sup.boundaryWarn (s : Sup) (m : Nat) : Sup :=
  match s.sched.current with
  | some i =>
    match s.entry i with
    | some e => if e.warningMinute = some m && !s.sched.warned then s.warn else s
    | none => s
  | none => s

/-- The actions of a minute boundary, as one set (R178). -/
def Sup.minuteBoundary (release : Sup → Sup) (s : Sup) : Sup :=
  let m := s.minute
  if s.sched.state = .enabled && s.room.isSet then
    ((((s.boundaryEnd m).boundaryStart m).boundaryPrewarm m).boundaryWarn m).finishSet release s.sched.current
  else s

/-! ### Clock sets, loads, disable (R176, R184, R185) -/

/-- The new time lies in the prewarm lead of the next entry (R181). -/
def Sup.inPrewarm (s : Sup) (m : Nat) (e : SlotEntry) : Bool :=
  match s.prewarmMinute e with
  | some p => minutesTo m e.startMinute ≤ minutesTo p e.startMinute
  | none => false

/-- The warning state follows a new time within the same slot (R185). -/
def Sup.followWarning (s : Sup) (e : SlotEntry) (m : Nat) : Sup :=
  if e.warningDue m then (if s.sched.warned then s else s.warn) else (if s.sched.warned then s.unwarn else s)

def Sup.startIndex (s : Sup) (i : Nat) (how : Entered) : Sup :=
  match s.entry i with
  | some e => s.startSlot i e how
  | none => s

def Sup.leaveSlot (s : Sup) (why : Ended) (withGrace : Bool) : Sup :=
  match s.sched.current with
  | some i => s.endSlot i why withGrace
  | none => s

/-- The schedule judged from the time as it stands: slot change, warning, prewarm, as one set (R185; R176 with ENABLE). -/
def Sup.judgeTime (release : Sup → Sup) (s : Sup) (how : Entered) : Sup :=
  let m := s.minute
  let old := s.sched.current
  let new := s.slotAt m
  let s1 :=
    if new = old then
      (match new with
        | some i =>
          match s.entry i with
          | some e => s.followWarning e m
          | none => s
        | none => s)
    else
      let t := s.leaveSlot .clockSet true
      match new with
      | some i => t.startIndex i how
      | none => t
  let s2 :=
    match s1.sched.current, s1.nextEntry m with
    | none, some e => if s1.inPrewarm m e then s1.prewarm e else s1
    | _, _ => s1
  s2.finishSet release old

/-- The clock takes a time, from a port's CLOCK write (R171). -/
def Sup.setClock (release : Sup → Sup) (s : Sup) (p : Port) (t : Nat) : Sup :=
  let s1 := { s with room.timeOfWeek := t, room.isSet := true }
  let s2 := if s.room.isSet then s1 else s1.queueStatus 20
  let ws := clockWords t
  let s3 := (s2.queueMirror .clock 0 (wordAt ws 0)).queueMirror .clock 1 (wordAt ws 1)
  let s4 := s3.report .clockSet p.code (word s3.minute)
  if s4.sched.state = .enabled then s4.judgeTime release .clockSet else s4

/-- The schedule state takes a value; SCHED is queued for a new one (R173). -/
def Sup.setScheduleState (s : Sup) (v : ScheduleState) : Sup :=
  if s.sched.state = v then s else { s with sched.state := v }.queueStatus 20

/-- The header record takes values; the mirror at 3E000H is queued if it changed (R173, R174). -/
def Sup.setHeader (s : Sup) (count : Nat) (enable : Bool) : Sup :=
  if s.sched.count = count && s.sched.enable = enable then s
  else { s with sched.count := count, sched.enable := enable }.queueControl 0x3E000 (headerWord count enable)

/-- A load fails (R176): DISABLED, the enable taken back, LOAD_FAIL, SETUP. -/
def Sup.failLoad (s : Sup) (i : Nat) (f : LoadFault) : Sup :=
  ((({ s with sched.load := none }.setScheduleState .disabled).setHeader s.sched.count false).report .loadFail i
    (word f.code)).raise .setup

/-- A load succeeds: the loaded copy and ENABLED (R176). -/
def Sup.succeedLoad (s : Sup) (es : List SlotEntry) : Sup :=
  { s with sched.load := none, sched.loaded := es }.setScheduleState .enabled

/-- After start-up an enable takes the time of week as a clock set from no current slot (R176). -/
def Sup.enableFromTime (release : Sup → Sup) (s : Sup) : Sup :=
  if s.room.isSet then s.judgeTime release .enable else s

/-- At start-up the slot current takes its start actions, less preset and light (R188). -/
def Sup.startUpSlot (s : Sup) : Sup :=
  match s.slotAt s.minute with
  | some i => s.startIndex i .startUp
  | none => s

/-- LOADING begins (R175): the entries are asked for; a count of 0 asks for none. -/
def Sup.beginLoad (s : Sup) : Sup :=
  let s1 := s.setScheduleState .loading
  if s1.sched.count = 0 then s1
  else { s1 with sched.load := some s1.mp.nextRead }.askRead .entries 0x3E010 (8 * s1.sched.count)

/-- The disable (R184). The schedule is DISABLED before its level change is announced, so that a CLOCK write released by that
announcement finds no timetable in force (log 32). -/
def Sup.disableSchedule (release : Sup → Sup) (s : Sup) : Sup :=
  let old := s.sched.current
  let s1 := { s with sched.load := none, sched.grace := none }
  let s2 := (s1.leaveSlot .disable false).setScheduleState .disabled
  (s2.handContribution release .unlocked).noteSlot old

/-- An accepted header write is taken (R174). At a disable the header record takes enable 0 after the actions of R184 (log 58). -/
def Sup.takeHeader (release : Sup → Sup) (s : Sup) (count : Nat) (enable : Bool) : Sup :=
  match s.sched.state, enable with
  | .disabled, false => s.setHeader count false
  | .disabled, true =>
    let t := (s.setHeader count true).beginLoad
    if count = 0 then (t.succeedLoad []).enableFromTime release else t
  | _, false => (s.disableSchedule release).setHeader count false
  | _, true => s

/-! ### Grace and seconds (R183, R170) -/

/-- The uptime has reached the end of a running grace. -/
def Sup.graceOver (s : Sup) (g : Grace) : Bool := (g.endUptime - g.slotEnd).toNat ≤ s.since g.slotEnd

/-- Grace expires (R183). An expiry that falls on the second of a minute boundary comes after that boundary (log 62). -/
def Sup.expireGrace (s : Sup) : Sup :=
  match s.sched.grace with
  | some g => if s.graceOver g then { s with sched.grace := none }.clearIfUnchanged g.slotEnd else s
  | none => s

/-- A minute boundary: the CLOCK mirror while SET, then the schedule (R170). One that passes before a window map is in force writes no
CLOCK word, and none is written for it later (log 14). -/
def Sup.takeMinute (release : Sup → Sup) (s : Sup) : Sup :=
  let ws := clockWords s.room.timeOfWeek
  let t :=
    if s.room.isSet then (s.queueMirror .clock 0 (wordAt ws 0)).queueMirror .clock 1 (wordAt ws 1) else s
  t.minuteBoundary release

/-- Ticks count for the lamps from the adoption step of start-up on (R106). -/
def StartStep.adopted : StartStep → Bool
  | .charterLoad => false
  | .records => false
  | _ => true

/-- A second tick (R169): uptime and time of week rise, wear accrues, a minute boundary is taken, RING is judged
(log 27). What the risen uptime brings to its end, a grace or a held write, comes after the whole tick (log 62). -/
def Sup.tickSecond (release : Sup → Sup) (s : Sup) : Sup :=
  let t := (s.room.timeOfWeek + 1) % weekSeconds
  let s1 :=
    { s.reach s.time.nextSecond with
      time.nextSecond := s.time.nextSecond + Config.periodsPerSecond
      room.uptime := s.room.uptime + 1
      room.timeOfWeek := t }
  let s2 := if s1.startUp.step.adopted then s1.accrueBoth else s1
  (if t % 60 = 0 then s2.takeMinute release else s2).judgeRing

end Sys2Proof.Machine
end

