-- ==== Sys2Proof/Machine/Windows.lean ====
section
/-! DEFINITION. The window decoder: the window of a word (R18, R19, R21), the length check (R22), ownership and record
checks (R24, R77, R123, R138, R160, R171, R174, R191, R13, R45, R100, R101), the lock and lit checks (R25), and the verdict
of a classification. Nothing here changes the state. -/

namespace Sys2Proof.Machine

/-! ### The window of a word -/

/-- The window a word belongs to for the span check: a built-in window, a configured window by its number, or the default
region. -/
inductive WindowId
  | schedule | charter | retained | retainedPlain | configured (n : Nat) | default
  deriving DecidableEq, Repr

def Window.covers (w : Window) (a : Nat) : Bool := w.used && w.base ≤ a && a < w.base + w.size

/-- The window of a word at or above 3C000H (R18). -/
def builtInWindow (a : Nat) : WindowId :=
  if 0x3E000 ≤ a && a ≤ 0x3E1FF then .schedule
  else if 0x3F000 ≤ a && a ≤ 0x3F3FF then .charter
  else if 0x3FF00 ≤ a && a ≤ 0x3FF1F then .retained
  else .retainedPlain

/-- The window of a word: a built-in one, else the lowest-numbered configured one that contains it (R19). -/
def windowAt (m : List Window) (a : Nat) : WindowId :=
  if Config.retainedBase ≤ a then builtInWindow a
  else
    match m.findIdx? (fun w => w.covers a) with
    | some n => .configured n
    | none => .default

/-- The span check: the one window of a range, or none when the range crosses a boundary or the end of memory (R21). -/
def spanWindow? (m : List Window) (start length : Nat) : Option WindowId :=
  if start + length ≤ Config.memoryWords &&
      (List.range length).all (fun i => windowAt m (start + i) == windowAt m start) then
    some (windowAt m start)
  else none

/-- The default classification (R19). -/
def defaultWindow : Window :=
  { cls := .plain, base := 0, size := 0, gated := false, lockHold := false, bursts := true, litOnly := false
    exhaustWait := false }

/-- The record of a configured window. -/
def windowRecord (m : List Window) (n : Nat) : Window := m.getD n unusedWindow

/-! ### The length check (R22) -/

/-- The SCHEDULE word is one of entry `(a - 3E010H) / 8`. -/
def isEntryWord (a : Nat) : Bool := 0x3E010 ≤ a && a < 0x3E190

def burstLength (bursts : Bool) (n : Nat) : Bool := n == 1 || (bursts && 1 ≤ n && n ≤ 8)

def readLengthOk (m : List Window) (w : WindowId) (length : Nat) : Bool :=
  match w with
  | .configured n =>
    let v := windowRecord m n
    if v.cls = .plain then burstLength v.bursts length else burstLength true length
  | _ => burstLength true length

/-- The lengths of writes at an offset of a record window; an offset that holds no record passes with any length. -/
def recordLengthOk (c : WindowClass) (offset length : Nat) : Bool :=
  match c with
  | .light => offset != 0 || length == 1
  | .mute => offset != 0 || length == 1
  | .status => 32 ≤ offset || length == 1
  | .claim => 5 ≤ offset || length == 1
  | .geometry => 8 ≤ offset || offset + length ≤ 8
  | .clock => 2 ≤ offset || (offset == 0 && length == 2)
  | .service =>
    6 ≤ offset || (if offset = 2 then length == 2 else if offset = 3 then false else length == 1)
  | .plain => true
  | .unused => true

def writeLengthOk (m : List Window) (w : WindowId) (start length : Nat) : Bool :=
  match w with
  | .configured n =>
    let v := windowRecord m n
    if v.cls = .plain then burstLength v.bursts length else recordLengthOk v.cls (start - v.base) length
  | .schedule =>
    if start = 0x3E000 then length == 1
    else if isEntryWord start then (start - 0x3E010) % 8 + length ≤ 8
    else true
  | _ => burstLength true length

/-! ### Ownership and record checks (R24) -/

/-- A record a block takes when its write is applied (R27). -/
inductive RecordAct
  | light (v : LightLevel)
  | claim (p : Port) (c : ClaimWord)
  | mute (v : Mute)
  | trim (t : Corners)
  | clock (timeOfWeek : Nat)
  | header (count : Nat) (enable : Bool)
  | portRelease (p : Port)
  | takeoverStart
  | takeoverEnd
  | lampClear (l : Lamp)
  | lampReplace (l : Lamp) (tag : Word)
  | charterReload
  deriving DecidableEq, Repr

/-- What step 8 does with a write that passes (R26, R27, R28). -/
inductive Course
  | forward
  | absorb (a : RecordAct)
  | merge
  deriving DecidableEq, Repr

/-- The outcome of a classification. -/
inductive Verdict
  | denied (r : DenyReason)
  | offered (c : Condition) (window : Nat)
  | applied (c : Course)
  deriving DecidableEq, Repr

def absorbed (a : RecordAct) : Except DenyReason Course := .ok (.absorb a)

def absorbOr (r : DenyReason) : Option RecordAct → Except DenyReason Course
  | some a => absorbed a
  | none => .error r

/-- A claim word accepted at classification: encoded as R204 says and, with a source, naming a valid entry (R123). -/
def Sup.acceptClaim (s : Sup) (w : Word) : Option ClaimWord :=
  match claimOfWrite? w with
  | some c =>
    match c.source with
    | some n => if (s.chart.inputEntry n).valid then some c else none
    | none => some c
  | none => none

/-- The candidate trim of a GEOMETRY write: the written coordinates take their beats, the others stand (R160). -/
def candidateTrim (trim : Corners) (offset : Nat) (beats : List Word) : Corners :=
  .build fun i => if offset ≤ i && i < offset + beats.length then (beats.getD (i - offset) 0).toInt else trim.at i

/-- The two checks of a GEOMETRY write, in their order (R160). -/
def Sup.acceptTrim (s : Sup) (offset : Nat) (beats : List Word) : Except DenyReason Course :=
  if beats.any (fun b => (trimOfWord? b).isNone) then .error .record
  else
    let t := candidateTrim s.geo.trim offset beats
    if orderOk s.chart.geometry (targetOf s.chart.geometry t) then absorbed (.trim t) else .error .geometry

/-- The check of a new tail (R191). -/
def Sup.tailOk (s : Sup) (w : Word) : Bool :=
  let n := s.chart.ring.count
  let t := bits w 7 0
  t < n && slotsFrom n s.ring.tail t ≤ slotsFrom n s.ring.tail s.ring.head

/-- LAMP_CLEAR is allowed in the lamp's state (R100). -/
def Sup.mayClear (s : Sup) (l : Lamp) : Bool :=
  let c := s.lamp.lamps.get l
  c.recordValid && (c.state == .failed || (c.state == .cooling && c.marked))

/-- LAMP_REPLACE is allowed in the lamp's state (R101). -/
def Sup.mayReplace (s : Sup) (l : Lamp) : Bool :=
  let c := s.lamp.lamps.get l
  c.state == .dark || c.state == .failed

/-- The record checks of a service record at an offset (R13, R45, R100, R101, R199, R204). -/
def Sup.acceptService (s : Sup) (offset : Nat) (beats : List Word) : Except DenyReason Course :=
  let w := beats.getD 0 0
  match offset with
  | 0 => absorbOr .record ((Port.ofCode? w.toNat).map .portRelease)
  | 1 => if w = 1 then absorbed .takeoverStart else if w = 2 then absorbed .takeoverEnd else .error .record
  | 2 =>
    match Lamp.ofCode? w.toNat with
    | some l => if s.mayReplace l then absorbed (.lampReplace l (beats.getD 1 0)) else .error .state
    | none => .error .record
  | 4 =>
    match Lamp.ofCode? w.toNat with
    | some l => if s.mayClear l then absorbed (.lampClear l) else .error .state
    | none => .error .record
  | 5 => absorbed .charterReload
  | _ => .error .record

/-- The judgement of a header write by the schedule state (R174). -/
def Sup.acceptHeader (s : Sup) (w : Word) : Except DenyReason Course :=
  match headerOfWrite? w with
  | none => .error .record
  | some (count, enable) =>
    if s.sched.state != .disabled && count != s.sched.count then .error .active
    else absorbed (.header count enable)

/-- Step 5 at a record window. -/
def Sup.acceptRecord (s : Sup) (v : Window) (p : Port) (offset : Nat) (beats : List Word) : Except DenyReason Course :=
  let w := beats.getD 0 0
  match v.cls with
  | .light => if offset = 0 then absorbOr .record ((lightOfWord? w).map .light) else .error .record
  | .mute => if offset = 0 then absorbOr .record ((muteOfWord? w).map .mute) else .error .record
  | .claim =>
    if offset < 4 then
      (if offset = p.code then absorbOr .record ((s.acceptClaim w).map (.claim p)) else .error .foreign)
    else if offset = 4 then .error .foreign
    else .error .record
  | .geometry => if offset < 8 then s.acceptTrim offset beats else .error .record
  | .clock =>
    if offset = 0 then absorbOr .record ((timeOfClockWords? w (beats.getD 1 0)).map .clock) else .error .record
  | .status =>
    if 32 ≤ offset then .error .record
    else if offset = 16 && !s.tailOk w then .error .record
    else .ok .merge
  | .service => if p = .service then s.acceptService offset beats else .error .foreign
  | .plain => .ok .forward
  | .unused => .ok .forward

/-- Step 5 (R24): ownership, then the owning block's record checks; what passes has its course at step 8. -/
def Sup.stepFive (s : Sup) (w : WindowId) (p : Port) (start : Nat) (beats : List Word) : Except DenyReason Course :=
  match w with
  | .configured n =>
    let v := windowRecord s.chart.windows n
    s.acceptRecord v p (start - v.base) beats
  | .schedule =>
    if start = 0x3E000 then s.acceptHeader (beats.getD 0 0)
    else if isEntryWord start then (if s.sched.state = .disabled then .ok .forward else .error .active)
    else .error .record
  | .charter => if p = .service then .ok .forward else .error .foreign
  | .retained => .ok .merge
  | .retainedPlain => .ok .forward
  | .default => .ok .forward

/-! ### The classification of a write -/

/-- Steps 6 to 8 (R25): the lock check of a gated window, the lit check of a lit-only PLAIN window, and the course. -/
def Sup.lastSteps (s : Sup) (w : WindowId) (p : Port) (c : Course) : Verdict :=
  match w with
  | .configured n =>
    let v := windowRecord s.chart.windows n
    if v.gated && !s.permits p then (if v.lockHold then .offered .lock n else .denied .locked)
    else if v.cls == .plain && v.litOnly && !s.anyLit then .offered .lit n
    else .applied c
  | .schedule => if s.permits p then .applied c else .denied .locked
  | _ => .applied c

/-- Steps 2 to 8 of a write, at its completion and at its release (R24, R25, R30). -/
def Sup.classify (s : Sup) (p : Port) (start : Nat) (beats : List Word) : Verdict :=
  match spanWindow? s.chart.windows start beats.length with
  | none => .denied .span
  | some w =>
    if !writeLengthOk s.chart.windows w start beats.length then .denied .burst
    else
      match s.stepFive w p start beats with
      | .error r => .denied r
      | .ok c => s.lastSteps w p c

/-- Steps 2 and 3 of a read: the reason it is refused for, or none when it is forwarded (R21 to R23). -/
def Sup.refuseRead (s : Sup) (start length : Nat) : Option DenyReason :=
  match spanWindow? s.chart.windows start length with
  | none => some .span
  | some w => if readLengthOk s.chart.windows w length then none else some .burst

end Sys2Proof.Machine
end

