-- ==== Sys2Proof/Machine/Records.lean ====
section
/-! DEFINITION. What step 8 of a classification does with a write: a record is absorbed by its owning block (R27), a STATUS or
RETAINED write is merged (R28), a forwarded write waits for the memory port (R26); and the release of held writes at an
announcement (R63 to R67). -/

namespace Sys2Proof.Machine

/-- The admission state becomes STALLED and the reload's read of the charter is asked for (R199). -/
def Sup.beginReload (s : Sup) : Sup :=
  { s with admission := .stalled, reloading := true }.askRead .charterReload 0x3F000 1024

/-- A record is taken by its owning block (R27). -/
def Sup.takeRecord (release : Sup → Sup) (s : Sup) (p : Port) : RecordAct → Sup
  | .light v => s.setDemand v
  | .claim q c => s.setClaim q.claimant c
  | .mute v => s.setRequestedMute v
  | .trim t => s.setTrim t
  | .clock t => s.setClock release p t
  | .header count enable => s.takeHeader release count enable
  | .portRelease q => s.releasePort q
  | .takeoverStart => s.startTakeover release
  | .takeoverEnd => s.endTakeover release
  | .lampClear l => s.clearLamp l
  | .lampReplace l tag => s.replaceLamp l tag
  | .charterReload => s.beginReload

/-- A new tail is taken (R191): the freed records leave the unread list, the overflow flag is cleared, the merged RING_TAIL
word is queued and RING is judged. -/
def Sup.takeTail (s : Sup) (t : Nat) : Sup :=
  let freed := slotsFrom s.chart.ring.count s.ring.tail t
  ({ s with ring.tail := t, ring.overflow := false, ring.unread := s.ring.unread.drop freed }.queueStatus 16).judgeRing

/-- A merged word of the RETAINED window: the part's current value again, or nothing for an invalid lamp record. -/
def Sup.mergeRetained (s : Sup) (a : Nat) : Sup :=
  match s.retainedWord? a with
  | some v => s.queueControl a v
  | none => s

def Sup.mergeRetainedRun (s : Sup) : Nat → Nat → Sup
  | _, 0 => s
  | a, n + 1 => (s.mergeRetained a).mergeRetainedRun (a + 1) n

/-- The owned-field merge of an applied write (R28). -/
def Sup.mergeWrite (s : Sup) (start : Nat) (beats : List Word) : Sup :=
  if Config.retainedBase ≤ start then s.mergeRetainedRun start beats.length
  else
    let offset := start - windowBase s.chart.windows .status
    if offset = 16 then s.takeTail (bits (beats.getD 0 0) 7 0) else s.queueStatus offset

/-! ### Release (R63 to R67) -/

/-- A released write that is applied (R65). -/
def Sup.applyReleased (release : Sup → Sup) (s : Sup) (e : HoldEntry) : Course → Sup
  | .forward =>
    s.noteHold
      { s.removeEntry e.sequence with
        mp.releases := s.mp.releases ++ [{ port := e.port, start := e.start, data := e.data }] }
  | .absorb a => (s.noteHold (s.removeEntry e.sequence)).takeRecord release e.port a
  | .merge => (s.noteHold (s.removeEntry e.sequence)).mergeWrite e.start e.data

/-- The entry of a serial is released, if it is still in the table: classified again and handled by the outcome (R65); an entry
found gone, one made again meanwhile among them, is passed over (R63, R71 to R73). -/
def Sup.releaseEntry (release : Sup → Sup) (s : Sup) (n : Nat) : Sup :=
  match s.entryMade n with
  | none => s
  | some e =>
    match s.classify e.port e.start e.data with
    | .denied r =>
      (s.noteHold (s.removeEntry e.sequence)).report .releaseDenied (holdSubject e.port e.window) (word r.code)
    | .offered c w => s.noteHold ((s.removeEntry e.sequence).addEntry e.port e.start e.data w c)
    | .applied c => s.applyReleased release e c

/-- The release set of an announcement, fixed when it is taken: the entries a test admits, each by its serial, in sequence order
(R63; log 52). -/
def Sup.releaseSet (s : Sup) (test : HoldEntry → Bool) : List Nat := (s.hold.entries.filter test).map (·.serial)

/-- The release at an announced level (R63). A released CLOCK write can change the level again; each such change consumes
the entry that made it, so the depth never passes the 24 entries. -/
def Sup.releaseLock : Nat → Sup → Sup
  | 0, s => s
  | n + 1, s =>
    (s.releaseSet fun e => e.condition == .lock && s.permits e.port).foldl (Sup.releaseEntry (Sup.releaseLock n)) s

/-- The hold table's answer to an announced level. -/
def Sup.levelRelease (s : Sup) : Sup := Sup.releaseLock (Config.holdEntries + 1) s

/-- The hold table's answer to a lamp's entry into LIT (R64). -/
def Sup.litRelease (s : Sup) : Sup :=
  (s.releaseSet fun e => e.condition == .lit).foldl (Sup.releaseEntry Sup.levelRelease) s

end Sys2Proof.Machine
end

