-- ==== Sys2Proof/Machine/MemoryPort.lean ====
section
/-! DEFINITION. The memory port controller (R31 to R39): who is ready, the two-ring arbiter, what each grant performs, and
what its completion does. -/

namespace Sys2Proof.Machine

/-! ### Readiness (R31, R34) -/

/-- Whether one of the first `n` queued reports will be written into a slot that shares a word with a run: the k-th goes to
the k-th slot from the head while the ring has room (log 20). -/
def Sup.queuedRecordTouches (s : Sup) (start length : Nat) : Bool :=
  let r := s.chart.ring
  (List.range s.mp.reports.length).any fun k =>
    s.ring.unread.length + k + 1 < r.count &&
      overlaps start length (r.base + 4 * ((s.ring.head + k) % r.count)) 4

/-- Read-after-write holding: a word of the run has an internal write queued (R34). -/
def Sup.heldBack (s : Sup) (start length : Nat) : Bool :=
  s.mp.control.any (fun e => overlaps start length e.1 1) ||
    s.mp.releases.any (fun r => overlaps start length r.start r.data.length) || s.queuedRecordTouches start length

/-- A port is ready while it has a forwarded request waiting that is not held back (R31). -/
def Sup.portReady (s : Sup) (p : Port) : Bool :=
  match (s.port p).collection with
  | .awaiting (.read start length _) => !s.heldBack start length
  | .awaiting (.write _ _) => true
  | _ => false

/-- The first internal read with words still to be read. -/
def Sup.nextPiece (s : Sup) : Option InternalRead := s.mp.reads.find? fun r => !r.complete

/-- INTERNAL is ready; reports wait until a ring geometry is in force (R31, R189). -/
def Sup.internalReady (s : Sup) : Bool :=
  !s.mp.control.isEmpty || s.nextPiece.isSome || !s.mp.releases.isEmpty ||
    (!s.mp.reports.isEmpty && s.charter.isSome)

def Sup.firstReady (s : Sup) : FirstRing → Bool
  | .internal => s.internalReady
  | .lectern => s.portReady .lectern
  | .panel => s.portReady .panel
  | .group => s.portReady .campus || s.portReady .service

def Sup.secondReady (s : Sup) : SecondRing → Bool
  | .campus => s.portReady .campus
  | .service => s.portReady .service

/-! ### The rings (R32, R33) -/

/-- The members in ring order from a pointer. -/
def FirstRing.order : FirstRing → List FirstRing
  | .internal => [.internal, .lectern, .panel, .group]
  | .lectern => [.lectern, .panel, .group, .internal]
  | .panel => [.panel, .group, .internal, .lectern]
  | .group => [.group, .internal, .lectern, .panel]

def FirstRing.following : FirstRing → FirstRing
  | .internal => .lectern
  | .lectern => .panel
  | .panel => .group
  | .group => .internal

def SecondRing.order : SecondRing → List SecondRing
  | .campus => [.campus, .service]
  | .service => [.service, .campus]

def SecondRing.following : SecondRing → SecondRing
  | .campus => .service
  | .service => .campus

/-- The pointers move in ROTATING mode only (R33). Before a charter is in force no mode is: the arbiter then runs as ROTATING
(log 44). -/
def Sup.moveFirst (s : Sup) (taken : FirstRing) : Sup :=
  if s.chart.port.fixedArbiter then s else { s with mp.first := taken.following }

def Sup.moveSecond (s : Sup) (taken : SecondRing) : Sup :=
  if s.chart.port.fixedArbiter then s else { s with mp.second := taken.following }

/-! ### Grants (R31, R38, R39) -/

def Sup.begin (s : Sup) (a : Access) : Sup := { s with mp.access := some a }

def Sup.grantPort (s : Sup) (p : Port) : Sup :=
  match (s.port p).collection with
  | .awaiting r => s.begin (.port p r)
  | _ => s

/-- INTERNAL's item, in the order of R39. A record that finds the ring full is dropped and takes no access; INTERNAL goes on
to its next item without releasing the memory port (R38, log 21). `n` bounds the drops. -/
def Sup.grantInternal : Nat → Sup → Sup
  | 0, s => s
  | n + 1, s =>
    match s.mp.control with
    | (a, v) :: rest => { s with mp.control := rest }.begin (.control a v)
    | [] =>
      match s.nextPiece with
      | some r =>
        s.begin (.piece r.number (r.start + r.words.length) (min 8 (r.length - r.words.length)))
      | none =>
        match s.mp.releases with
        | item :: rest => { s with mp.releases := rest }.begin (.release item)
        | [] =>
          match s.mp.reports with
          | r :: rest =>
            if s.charter.isNone then s
            else if s.ringFull then Sup.grantInternal n { s with mp.reports := rest }.setOverflow
            else s.begin (.record (s.chart.ring.base + 4 * s.ring.head) r)
          | [] => s

/-- One arbitration: the first ready member of the first ring, and for GROUP of the second ring (R32). -/
def Sup.arbitrate (s : Sup) : Sup :=
  match s.mp.first.order.find? s.firstReady with
  | none => s
  | some .internal => Sup.grantInternal (s.mp.reports.length + 1) (s.moveFirst .internal)
  | some .lectern => (s.moveFirst .lectern).grantPort .lectern
  | some .panel => (s.moveFirst .panel).grantPort .panel
  | some .group =>
    match s.mp.second.order.find? s.secondReady with
    | some .campus => ((s.moveFirst .group).moveSecond .campus).grantPort .campus
    | some .service => ((s.moveFirst .group).moveSecond .service).grantPort .service
    | none => s

/-- A grant is made when the memory port is free and a requester is ready (R31). A second arbitration follows a grant whose
items were all dropped. -/
def Sup.grant (s : Sup) : Sup :=
  if s.mp.access.isSome then s
  else
    let t := s.arbitrate
    if t.mp.access.isSome then t else t.arbitrate

/-! ### Completion (R31, R35, R37, R38, R194) -/

/-- Memory as it stands when an access completes: for a read, the words newly found failing keep failing; for a write, the
words are written. -/
def Access.effect (m : Memory) (failing : List Nat) : Access → Memory
  | .port _ (.read start length _) =>
    (failing.filter fun a => start ≤ a && a < start + length).foldl Memory.spoil m
  | .piece _ start length => (failing.filter fun a => start ≤ a && a < start + length).foldl Memory.spoil m
  | .port _ (.write start beats) => m.writeRun start beats
  | .control a v => m.write a v
  | .release item => m.writeRun item.start item.data
  | .record start r => m.writeRun start (reportWords r)
  | .lostRecord start r => m.writeRun start (reportWords r)

/-- A PANEL read of ATTENTION answered DONE clears LAMP, PORT and SETUP where the value read shows them (R194). -/
def Sup.clearShown (s : Sup) (w : Word) : Sup :=
  let a := s.ring.attention
  s.setAttention
    { a with lamp := a.lamp && !bit w 4, port := a.port && !bit w 5, setup := a.setup && !bit w 6 }

/-- The subject of PARITY: the port in bits 1–0, address bits 17–16 in bits 5–4 (R207). -/
def paritySubject (p : Port) (a : Nat) : Nat := a / 65536 % 4 * 16 + p.code

/-- A port read is done: DONE with its data, or FAULT with a PARITY report when a word fails (R23, R35). -/
def Sup.readDone (s : Sup) (p : Port) (start : Nat) (attention : Option Nat) (rs : List ReadWord) : Sup :=
  match rs.findIdx? (·.bad) with
  | some k =>
    ((s.report .parity (paritySubject p (start + k)) (word ((start + k) % 65536))).raise .setup).respond p .fault
  | none =>
    let t := s.respond p (.done (rs.map (·.value)))
    match attention with
    | some i => t.clearShown (wordAt (rs.map (·.value)) i)
    | none => t

/-- The words of a piece join their internal read. -/
def joinPiece (number start : Nat) (rs : List ReadWord) (r : InternalRead) : InternalRead :=
  if r.number = number && r.start + r.words.length = start then { r with words := r.words ++ rs } else r

/-- A record has been written whole: it leaves the queue, the head advances, its uptime joins the unread list, RING_HEAD is
queued and RING judged (R190). -/
def Sup.recordWritten (s : Sup) (r : Report) : Sup :=
  ({ s with
      mp.reports := s.mp.reports.tail
      ring.head := (s.ring.head + 1) % s.chart.ring.count
      ring.unread := s.ring.unread ++ [r.uptime] }.queueStatus 15).judgeRing

/-- What the completion of an access does in the 7A; `m` is memory as the access found it left. -/
def Sup.accessDone (s : Sup) (m : Memory) (a : Access) : Sup :=
  let t := { s with mp.access := none }
  match a with
  | .port p (.read start length attention) => t.readDone p start attention (m.readRun start length)
  | .port p (.write _ _) => t.respond p (.done [])
  | .control _ _ => t
  | .piece number start length =>
    { t with mp.reads := t.mp.reads.map (joinPiece number start (m.readRun start length)) }
  | .release _ => s.noteHold t
  | .record _ r => t.recordWritten r
  | .lostRecord _ _ => t

/-! ### Reset (R15, R40) -/

/-- The words an access writes. -/
def Access.writes : Access → Option (Nat × List Word)
  | .port _ (.write start beats) => some (start, beats)
  | .control a v => some (a, [v])
  | .release item => some (item.start, item.data)
  | .record start r => some (start, reportWords r)
  | .lostRecord start r => some (start, reportWords r)
  | .port _ (.read _ _ _) => none
  | .piece _ _ _ => none

/-- A reset abandons the access in progress: memory has got as far with a write as it had, which is a free value (R40,
log 9). -/
def Memory.abandon (m : Memory) (ticket : Nat) : Option Access → Memory
  | some a =>
    match a.writes with
    | some (start, vs) => m.writeRun start (vs.take (Config.abandonedWords ticket))
    | none => m
  | none => m

end Sys2Proof.Machine
end

