-- ==== Sys2Proof/Machine/Requests.lean ====
section
/-! DEFINITION. Bus traffic at the port controllers (R1, R2, R6 to R8, R16): headers, beats, the completion of a request,
admission, the quarantine check, classification and what each outcome does. -/

namespace Sys2Proof.Machine

/-! ### A complete request (R6, R7) -/

/-- The place of the ATTENTION word in a PANEL read's range (R23). -/
def Sup.attentionIn (s : Sup) (p : Port) (start length : Nat) : Option Nat :=
  let a := windowBase s.chart.windows .status + 14
  if p = .panel && start ≤ a && a < start + length then some (a - start) else none

/-- A request joins the memory port's waiting requests: the port controller awaits its response (R2, R23, R26). -/
def Sup.await (s : Sup) (p : Port) (r : Request) : Sup :=
  s.setPort p { s.port p with collection := .awaiting r, timer := none }

/-- A classified read: refused, or forwarded (R23). -/
def Sup.takeRead (s : Sup) (p : Port) (start length : Nat) : Sup :=
  match s.refuseRead start length with
  | some r => s.respond p (.denied r)
  | none => s.await p (.read start length (s.attentionIn p start length))

/-- A write offered to the hold table (R59, R62). -/
def Sup.offer (s : Sup) (p : Port) (start : Nat) (beats : List Word) (c : Condition) (window : Nat) : Sup :=
  if s.hasRoom p start beats.length then (s.holdWrite p start beats window c).respond p .held
  else if (windowRecord s.chart.windows window).exhaustWait then s.countedWait p
  else s.respond p (.denied .full)

/-- A write applied at step 8 (R25 to R28): the port's held write to the same start is superseded; a forwarded write goes to
the memory port, a record is absorbed after its DONE, a STATUS or RETAINED write is merged. -/
def Sup.applyWrite (s : Sup) (p : Port) (start : Nat) (beats : List Word) : Course → Sup
  | .forward => ((s.supersede p start).overtake p start).await p (.write start beats)
  | .absorb a => ((s.supersede p start).respond p (.done [])).takeRecord Sup.levelRelease p a
  | .merge => ((s.supersede p start).respond p (.done [])).mergeWrite start beats

/-- A classified write. -/
def Sup.takeWrite (s : Sup) (p : Port) (start : Nat) (beats : List Word) : Sup :=
  match s.classify p start beats with
  | .denied r => s.respond p (.denied r)
  | .offered c n => s.offer p start beats c n
  | .applied c => s.applyWrite p start beats c

/-- Admission, then quarantine (R6, R7): what a complete request meets before it is classified; `classified` takes it on. -/
def Sup.passAdmission (s : Sup) (p : Port) (classified : Sup) : Sup :=
  match s.admission with
  | .stalled => s.respond p .wait
  | .admitting => if (s.port p).quarantined then s.respond p (.denied .quarantined) else classified

/-! ### Traffic (R2, R8) -/

/-- The beat timeout in crystal periods; before a charter is in force it is a free value (log 15). -/
def Sup.beatPeriods (s : Sup) : Nat :=
  match s.charter with
  | some ch => periodsOfMicros ch.port.beatTimeout
  | none => periodsOfMicros (1 + Config.earlyBeatTimeout s.ticket % 255)

/-- The header of a READ (R2): complete at an idle controller, discarded at any other. -/
def Sup.readHeader (s : Sup) (p : Port) (start length : Nat) : Sup :=
  match (s.port p).collection with
  | .idle =>
    let t := s.setPort p { s.port p with response := none }
    t.passAdmission p (t.takeRead p start length)
  | _ => s

/-- The header of a WRITE (R2, R8): an idle controller starts collecting and starts the beat timer; any other discards
it. -/
def Sup.writeHeader (s : Sup) (p : Port) (start length : Nat) : Sup :=
  match (s.port p).collection with
  | .idle =>
    s.useTicket.setPort p
      { s.port p with
        collection := .collecting start length [], timer := some (s.after s.beatPeriods), response := none }
  | _ => s

/-- A beat (R2, R8): taken by a controller that is collecting, completing the write when it is the last; discarded by any
other. -/
def Sup.beat (s : Sup) (p : Port) (w : Word) : Sup :=
  match (s.port p).collection with
  | .collecting start length bs =>
    let beats := bs ++ [w]
    if beats.length < length then
      s.useTicket.setPort p
        { s.port p with
          collection := .collecting start length beats, timer := some (s.after s.beatPeriods) }
    else
      let t := s.setPort p { s.port p with timer := none }
      t.passAdmission p (t.takeWrite p start beats)
  | _ => s

/-- The controller is collecting this very write and waits for its last beat (log 1). -/
def Sup.awaitsLast (s : Sup) (p : Port) (start : Nat) (beats : List Word) : Bool :=
  match (s.port p).collection with
  | .collecting a n bs => a == start && n == beats.length && bs == beats.dropLast && !beats.isEmpty
  | _ => false

/-- A whole write is sent: its last beat where the controller has collected all before it; otherwise its header and its
beats in an unbroken run (R1, R2, log 1). -/
def Sup.sendWrite (s : Sup) (p : Port) (start : Nat) (beats : List Word) : Sup :=
  if s.awaitsLast p start beats then s.beat p (beats.getLastD 0)
  else beats.foldl (fun t w => t.beat p w) (s.writeHeader p start beats.length)

/-- A whole write to an offset of the window of a class in the map in force (log 2). -/
def Sup.sendRecord (s : Sup) (p : Port) (c : WindowClass) (offset : Nat) (beats : List Word) : Sup :=
  s.sendWrite p (windowBase s.chart.windows c + offset) beats

/-- The beat timer of a write runs out (R8). -/
def Sup.beatTimedOut (s : Sup) (p : Port) : Sup :=
  match (s.port p).collection, (s.port p).timer with
  | .collecting _ _ _, some t => (s.reach t).endCollection p
  | _, _ => s

end Sys2Proof.Machine
end

