-- ==== Sys2Proof/Machine/StartUp.lean ====
section
/-! DEFINITION. The two resets, the steps of start-up (R198) and the charter reload (R199, R200), and the power-fail line
(R115). -/

namespace Sys2Proof.Machine

/-! ### Resets -/

/-- The 7A after a power-on reset, its input lines and its crystal as they are. -/
def Sup.powerOn (s : Sup) : Sup :=
  Sup.afterPowerOn s.time.crystal s.time.nextSecond (s.ticket + 1) s.lines (s.source.signals.map (·.line))

/-- The 7A after a line reset: as after a power-on, but the room clock's state and time are kept (R172) and the cause is
LINE. The trim, which R167 sets to zero for a power-on only, is zero here too until the rebuild step (log 24). -/
def Sup.lineReset (s : Sup) : Sup :=
  { s.powerOn with
    startUp := { step := .charterLoad, cause := .line }
    room := { s.room with uptime := 0 } }

/-! ### Step 1: charter load -/

/-- The version of a charter in a report of the charter loader: bits 15–8 in the subject, bits 7–0 in detail bits 15–8
(R207). -/
def Sup.charterReport (s : Sup) (k : ReportKind) (low : Nat) : Sup :=
  let v := s.chart.version.toNat
  s.report k (v / 256) (word (v % 256 * 256 + low))

/-- The arbiter's pointers stand at the first member of each ring (R32, R33). -/
def Sup.restartArbiter (s : Sup) : Sup := { s with mp.first := .internal, mp.second := .campus }

/-- The charter judged at start-up is put in force, or the fallback charter (R198 step 1). Where the charter's arbiter mode is FIXED the
pointers, which have moved as in ROTATING mode until now (log 44), go to the first member of each ring (R33). -/
def Sup.loadCharter (s : Sup) (rs : List ReadWord) : Sup :=
  match judgeCharter rs with
  | .ok ch =>
    let t := if ch.port.fixedArbiter then s.restartArbiter else s
    ({ t with charter := some ch, isFallback := false }.charterReport .charterLoaded 0).queueStatus 24
  | .error f =>
    (({ s with charter := some fallbackCharter, isFallback := true }.charterReport .fallback f.number).raise
      .setup).queueStatus 24

/-- Step 2 begins: the retained records are asked for, and after a line reset the lamp command words (R116, R117). -/
def Sup.askRecords (s : Sup) : Sup :=
  let t := { s with startUp.step := .records }.askRead .records 0x3FF00 20
  match s.startUp.cause with
  | .power => t
  | .line => t.askRead .records (windowBase s.chart.windows .status) 2

/-- CHARTER_LOAD. -/
def Sup.charterLoaded (s : Sup) (m : Memory) : Sup :=
  if s.startUp.step = .charterLoad then
    let rs := (s.readsOf .charterStart).flatMap fun r => r.finish m
    ((s.dropReads .charterStart).loadCharter rs).askRecords
  else s

/-! ### Steps 2 and 3: retained records and adoption (R116, R117) -/

def quad (ws : List Word) (i : Nat) : Nat := (wordAt ws i).toNat + (wordAt ws (i + 1)).toNat * 65536

/-- A lamp record's counters, when its mark, stage and ranges are right (R110). -/
def lampRecordOf? (l : Lamp) (ws : List Word) : Option WearCell :=
  match LifeStage.ofCode? (bits (wordAt ws 0) 1 0) with
  | some stage =>
    let c : WearCell :=
      { wear := quad ws 3, litSeconds := quad ws 5, strikes := (wordAt ws 7).toNat
        strikeFailures := bits (wordAt ws 1) 15 8, dropouts := bits (wordAt ws 1) 7 0, tag := wordAt ws 2
        stage := stage, flushCount := 0, loaded := true, record := [] }
    if bits (wordAt ws 0) 15 4 = lampMark l && c.strikeFailures ≤ c.strikes && 1800 * c.strikes ≤ c.wear then
      some { c with record := lampRecordWords l c }
    else none
  | none => none

/-- A lamp record judged: its counters, or the detail of its RECORD_BAD, PARITY 1 or RANGE 2 (R110, R117). -/
def judgeLampRecord (l : Lamp) (rs : List ReadWord) : Except Nat WearCell :=
  if rs.any (·.bad) then .error 1
  else
    match lampRecordOf? l (rs.map (·.value)) with
    | some c => .ok c
    | none => .error 2

/-- The shutdown record judged: hot set, start count and last reset cause, or the detail of its RECORD_BAD (R116). -/
def judgeShutdown (rs : List ReadWord) : Except Nat (PerLamp Bool × Word × ResetCause) :=
  let ws := rs.map (·.value)
  if rs.any (·.bad) then .error 1
  else if wordAt ws 0 != shutdownMark then .error 2
  else
    let hot : PerLamp Bool := ⟨bit (wordAt ws 1) 0, bit (wordAt ws 1) 1⟩
    match (wordAt ws 3).toNat with
    | 0 => .ok (hot, wordAt ws 2, .power)
    | 1 => .ok (hot, wordAt ws 2, .line)
    | _ => .error 2

/-- The shutdown record is taken, or both lamps hot with its report (R116). -/
def Sup.takeShutdown (s : Sup) (rs : List ReadWord) : Sup :=
  match judgeShutdown rs with
  | .ok (hot, n, cause) => { s with wear.hot := hot, wear.startCount := n, wear.lastCause := cause }
  | .error d =>
    ({ s with wear.hot := ⟨true, true⟩, wear.startCount := 0, wear.lastCause := .power }.report .recordBad 2
      (word d)).raise .lamp

/-- The level a lit lamp is adopted at: its command word after a line reset, when read well and ON; else NORMAL (R117). -/
def adoptedLevel (cause : ResetCause) (r : ReadWord) : LightLevel :=
  match cause with
  | .power => .normal
  | .line =>
    if r.bad then .normal
    else
      match LightLevel.ofCode (bits r.value 1 0) with
      | .off => .normal
      | v => v

/-- A lamp with an invalid record is adopted FAILED, or COOLING with its mark when lit or shown hot (R117 test 1). -/
def Sup.adoptInvalid (s : Sup) (l : Lamp) (detail : Nat) : Sup :=
  let hot := s.lines.lampok.get l || s.wear.hot.get l
  let c : LampCell :=
    if hot then
      { LampCell.reset with
        state := .cooling, marked := true, recordValid := false
        timer := some (s.after (periodsOfSeconds s.chart.lamp.cooldown)) }
    else { LampCell.reset with state := .failed, recordValid := false }
  let t := ((s.setCell l c).report .recordBad l.code (word detail)).raise .lamp
  if hot then t else t.raiseNotice .lampFailed

/-- A lamp with a valid record is adopted by its LAMPOK line and the shutdown record (R117 tests 2 to 4). -/
def Sup.adoptValid (s : Sup) (l : Lamp) (level : LightLevel) : Sup :=
  if s.lines.lampok.get l then
    (s.setCell l { LampCell.reset with state := .lit, command := level }).report .lit l.code (word level.code)
  else if s.wear.hot.get l then
    ((s.setCell l
        { LampCell.reset with
          state := .cooling, timer := some (s.after (periodsOfSeconds s.chart.lamp.cooldown)) }).report .hotStart
      l.code (detailOf s.chart.lamp.cooldown)).raise .lamp
  else s.setCell l LampCell.reset

def Sup.adopt (s : Sup) (l : Lamp) (r : Except Nat WearCell) (level : LightLevel) : Sup :=
  match r with
  | .ok c => (s.setWear l c).adoptValid l level
  | .error d => s.adoptInvalid l d

/-- Steps 2 and 3 on the words read: shutdown record, both lamps adopted, their words queued, the stages judged, LAMP_WORN
raised (R116, R117, R109). Lamp A is adopted, and judged, before lamp B (log 46). LAMP_FAILED is raised with the adoption, so before
LAMP_WORN (log 54). -/
def Sup.adoptLamps (s : Sup) (rs : List ReadWord) : Sup :=
  let bad : ReadWord := { value := 0, bad := true }
  let s1 := s.takeShutdown ((rs.drop 16).take 4)
  let s2 := s1.adopt .a (judgeLampRecord .a (rs.take 8)) (adoptedLevel s.startUp.cause (rs.getD 20 bad))
  let s3 := s2.adopt .b (judgeLampRecord .b ((rs.drop 8).take 8)) (adoptedLevel s.startUp.cause (rs.getD 21 bad))
  let s4 := s3.queueStatuses [0, 1, 2]
  let s5 := (s4.judgeStage Sup.strikeDecision .a).judgeStage Sup.strikeDecision .b
  if s5.anyWorn then s5.raiseNotice .lampWorn else s5

/-- Step 4 begins: after a line reset the mirrors are asked for (R79, R143, R168), in an order that is the model's: LIGHT, CLAIM, MUTE,
LIVE_SELECT with LIVE_MUTE, GEOMETRY, LIVE_CORNERS (log 60). -/
def Sup.askMirrors (s : Sup) : Sup :=
  let t := { s with startUp.step := .rebuild }
  match s.startUp.cause with
  | .power => t
  | .line =>
    let base := windowBase s.chart.windows
    (((((t.askRead .rebuild (base .light) 1).askRead .rebuild (base .claim) 4).askRead .rebuild (base .mute) 1).askRead
        .rebuild (base .status + 3) 2).askRead .rebuild (base .geometry) 8).askRead .rebuild (base .status + 6) 8

/-- RETAINED_RECORDS_READ. -/
def Sup.recordsRead (s : Sup) (m : Memory) : Sup :=
  if s.startUp.step = .records then
    let rs := (s.readsOf .records).flatMap fun r => r.finish m
    ((s.dropReads .records).adoptLamps rs).askMirrors
  else s

/-! ### Step 4: rebuild -/

/-- The mirrors as read at a line reset: LIGHT, CLAIM 0 to 3, MUTE, LIVE_SELECT, LIVE_MUTE, trim, live corners. -/
structure Mirrors where
  light : ReadWord
  claims : List ReadWord
  mute : ReadWord
  liveSelect : ReadWord
  liveMute : ReadWord
  trim : List ReadWord
  corners : List ReadWord
  deriving DecidableEq, Repr

def mirrorsOf (rs : List ReadWord) : Mirrors :=
  let bad : ReadWord := { value := 0, bad := true }
  { light := rs.getD 0 bad, claims := (rs.drop 1).take 4, mute := rs.getD 5 bad, liveSelect := rs.getD 6 bad
    liveMute := rs.getD 7 bad, trim := (rs.drop 8).take 8, corners := (rs.drop 16).take 8 }

/-- Each lamp is brought into agreement with the demand (R104); the callers take lamp A first (log 46). -/
def Sup.agreeWithDemand (s : Sup) (l : Lamp) : Sup :=
  if (s.lamp.lamps.get l).state = .lit then
    (if s.lamp.demand.level.isOn then s.setCommand l s.lamp.demand.level else s.takeDown l .lit)
  else s

/-- The demand is rebuilt (R79); `write` asks for the mirror to be written. -/
def Sup.rebuildDemand (s : Sup) (v : LightLevel) (write : Bool) : Sup :=
  let t := { s with lamp.demand := { level := v, setTime := s.room.uptime } }
  let u := if write then t.queueMirror .light 0 (word v.code) else t
  ((u.agreeWithDemand .a).agreeWithDemand .b).strikeDecision

/-- The demand and the lamps after a line reset (R79, R104); bits 15–2 of the mirror are disregarded (R202). -/
def Sup.rebuildDemandLine (s : Sup) (r : ReadWord) : Sup :=
  if r.bad then s.rebuildDemand .off true else s.rebuildDemand (.ofCode (bits r.value 1 0)) false

/-- The demand and the lamps after a power-on: level OFF, set time 0 (R79, R104). -/
def Sup.rebuildDemandPower (s : Sup) : Sup :=
  let t := { s with lamp.demand := { level := .off, setTime := 0 } }.queueMirror .light 0 0
  ((t.agreeWithDemand .a).agreeWithDemand .b).strikeDecision

/-- A port's claim word read back, when it is valid (R143). -/
def Sup.claimBack? (s : Sup) (r : ReadWord) : Option ClaimWord :=
  if r.bad then none else loadedClaim? s.chart r.value

/-- A port's claims table entry is rebuilt, or withdrawn with its mirror written (R143). The claim time of a claim withdrawn so, the
schedule's among them, is the uptime of the rebuild too (log 49). -/
def Sup.rebuildClaim (s : Sup) (c : Claimant) (r : Option ClaimWord) : Sup :=
  let w := r.getD .withdraw
  let t := { s with source.claims := s.source.claims.set c { word := w, time := s.room.uptime } }
  if r.isSome then t else t.queueMirror .claim c.offset w.encode

/-- What the sequencer does with the target of a line reset's rebuild (R143). -/
def Sup.resumeSequencer (s : Sup) : Sup :=
  if s.source.target = s.seq.liveSelect then
    (match s.seq.liveMute, s.source.requestedMute with
      | .muted, .clear => { s with seq.counter := s.chart.settleCount }.setSeqState .settling
      | .clear, .muted => s.setLiveMute .muted
      | _, _ => s)
  else s.recheckTarget

/-- The resolution of a line reset's rebuild, in the order of R127: winner and target, the sequencer by R143, the class, the NO_SIGNAL
condition. -/
def Sup.resolveRebuilt (s : Sup) : Sup :=
  let w := s.findWinner
  let t := { s with source.winner := w, source.target := s.targetFor w }.resumeSequencer
  (t.handClass s.source.winner).judgeNoSignal

/-- Claims, requested mute and the live words rebuilt after a line reset, the resolution, and SOURCE (R143). -/
def Sup.rebuildSourceLine (s : Sup) (r : Mirrors) : Sup :=
  let bad : ReadWord := { value := 0, bad := true }
  let s1 := s.rebuildClaim .panel (s.claimBack? (r.claims.getD 0 bad))
  let s2 := s1.rebuildClaim .lectern (s.claimBack? (r.claims.getD 1 bad))
  let s3 := s2.rebuildClaim .campus (s.claimBack? (r.claims.getD 2 bad))
  let s4 := s3.rebuildClaim .service (s.claimBack? (r.claims.getD 3 bad))
  let s5 := s4.rebuildClaim .schedule none
  let s6 :=
    if r.mute.bad then { s5 with source.requestedMute := .clear }.queueMirror .mute 0 0
    else { s5 with source.requestedMute := .ofBit (bit r.mute.value 0) }
  let sel := if r.liveSelect.bad then none else Select.ofCode? (bits r.liveSelect.value 3 0)
  let s7 := { s6 with seq.liveSelect := sel.getD .blank, seq.state := .idle, seq.counter := 0 }
  let s8 := if sel.isSome then s7 else s7.queueStatus 3
  let s9 :=
    if r.liveMute.bad then { s8 with seq.liveMute := .muted }.queueStatus 4
    else { s8 with seq.liveMute := .ofBit (bit r.liveMute.value 0) }
  s9.resolveRebuilt.queueStatus 18

/-- The defaults after a power-on are written, and the resolver resolves (R142). -/
def Sup.rebuildSourcePower (s : Sup) : Sup :=
  let w := ClaimWord.withdraw.encode
  let t :=
    ((((s.queueMirror .claim 0 w).queueMirror .claim 1 w).queueMirror .claim 2 w).queueMirror .claim 3 w).queueMirror
      .claim 4 w
  (((t.queueMirror .mute 0 0).queueStatuses [3, 4]).resolve).queueStatus 18

/-- The geometry unit after a power-on (R167). -/
def Sup.rebuildGeometryPower (s : Sup) : Sup :=
  let target := targetOf s.geoParams (.all 0)
  ({ s with geo := { trim := .all 0, target := target, live := target, slewing := false } }.queueTrim
    (List.range 8)).queueStatuses ((List.range 8).map (· + 6))

/-- The trim read back, when it is valid (R168). -/
def Sup.trimBack? (s : Sup) (rs : List ReadWord) : Option Corners :=
  if rs.any (fun r => r.bad || (trimOfWord? r.value).isNone) then none
  else
    let t := Corners.build fun i => (wordAt (rs.map (·.value)) i).toInt
    if orderOk s.geoParams (targetOf s.geoParams t) then some t else none

/-- A LIVE_CORNERS coordinate read back: bits 10–0 (R203), clamped; a word of bad parity gives the target (R168). -/
def Sup.cornerBack (s : Sup) (target : Corners) (rs : List ReadWord) (i : Nat) : Int :=
  let r := rs.getD i { value := 0, bad := true }
  if r.bad then target.at i
  else clampTo (s.geoParams.minima.at i) (s.geoParams.maxima.at i) (bits r.value 10 0)

/-- The coordinates whose live value differs from the word read (R168); a word of bad parity counts as differing, whatever its bits
(log 56). -/
def cornersToWrite (live : Corners) (rs : List ReadWord) : List Nat :=
  (List.range 8).filter fun i =>
    let r := rs.getD i { value := 0, bad := true }
    r.bad || live.at i != (bits r.value 10 0 : Int)

/-- The geometry unit after a line reset (R168). -/
def Sup.rebuildGeometryLine (s : Sup) (r : Mirrors) : Sup :=
  let back := s.trimBack? r.trim
  let trim := back.getD (.all 0)
  let target := targetOf s.geoParams trim
  let live := Corners.build (s.cornerBack target r.corners)
  let t := { s with geo := { trim := trim, target := target, live := live, slewing := false } }
  let u := if back.isSome then t else t.queueTrim (List.range 8)
  (u.queueStatuses ((cornersToWrite live r.corners).map (· + 6))).judgeSlew

/-- The words every rebuild writes with the part's values: OVERLAY (R156), SCHED (log 26), ports, lock, hold table, ring and
attention (R198 step 4), and offsets 25 to 31 with zero (R202). -/
def rebuildStatuses : List Nat := [20, 5, 21, 22, 17, 19, 15, 16, 14, 25, 26, 27, 28, 29, 30, 31]

/-- Step 4 after a power-on, block by block in the order of log 61. -/
def Sup.rebuildPower (s : Sup) : Sup :=
  let t := s.rebuildDemandPower.rebuildSourcePower.rebuildGeometryPower
  ((t.queueMirror .clock 0 0).queueMirror .clock 1 0).queueStatuses rebuildStatuses

/-- Step 4 after a line reset, block by block: demand and lamps, sources, geometry. The spec does not order the blocks, and in this order
NO_LAMP is raised before NO_SIGNAL (R143, R154, R156, R198; log 61). -/
def Sup.rebuildLine (s : Sup) (r : Mirrors) : Sup :=
  (((s.rebuildDemandLine r.light).rebuildSourceLine r).rebuildGeometryLine r).queueStatuses rebuildStatuses

/-- REBUILD; step 5 begins with the read of the schedule header (R188). -/
def Sup.rebuilt (s : Sup) (m : Memory) : Sup :=
  if s.startUp.step = .rebuild then
    let rs := (s.readsOf .rebuild).flatMap fun r => r.finish m
    let t := s.dropReads .rebuild
    let u :=
      match s.startUp.cause with
      | .power => t.rebuildPower
      | .line => t.rebuildLine (mirrorsOf rs)
    { u with startUp.step := .header }.askRead .header 0x3E000 1
  else s

/-! ### Steps 5 to 7 -/

/-- Steps 6 and 7: the start count, the shutdown record and START; admission becomes OPEN (R118, R198). The hot set written is that of
the lamp states at step 6 (log 55). -/
def Sup.endStartUp (s : Sup) : Sup :=
  let t :=
    { s with wear.startCount := s.wear.startCount + 1, wear.lastCause := s.startUp.cause }.rewriteShutdown.queueStatus
      23
  { t with startUp.step := .running, admission := .admitting }

/-- The end of step 5: the contribution is handed and SCHED written (R188, R54). -/
def Sup.endScheduleLoad (s : Sup) : Sup :=
  ((s.handContribution Sup.levelRelease s.slotLevel).queueStatus 20).endStartUp

/-- The header read at start-up fails (R188). -/
def Sup.badHeader (s : Sup) (f : LoadFault) : Sup :=
  (({ s with sched.count := 0, sched.enable := false }.queueControl 0x3E000 (headerWord 0 false)).report .loadFail 0x3F
    (word f.code)).raise .setup

/-- The header read at start-up is judged (R188). A valid header is taken without a mirror write (log 57). -/
def Sup.takeHeaderRead (s : Sup) (r : ReadWord) : Sup :=
  if r.bad then (s.badHeader .parity).endScheduleLoad
  else
    match headerOfWord? r.value with
    | none => (s.badHeader .range).endScheduleLoad
    | some (count, enable) =>
      let t := { s with sched.count := count, sched.enable := enable }
      if !enable then t.endScheduleLoad
      else if count = 0 then (t.beginLoad.succeedLoad []).startUpSlot.endScheduleLoad
      else { t.beginLoad with startUp.step := .entries }

/-- SCHEDULE_HEADER_READ. -/
def Sup.headerRead (s : Sup) (m : Memory) : Sup :=
  if s.startUp.step = .header then
    let rs := (s.readsOf .header).flatMap fun r => r.finish m
    (s.dropReads .header).takeHeaderRead (rs.getD 0 { value := 0, bad := true })
  else s

/-- The entries of the load in progress have been read: they are judged and the load ends (R175, R176, R188). -/
def Sup.endLoad (s : Sup) (rs : List ReadWord) : Sup :=
  match judgeEntries s.chart s.sched.count 0 none rs with
  | .ok es =>
    if s.startUp.step = .entries then (s.succeedLoad es).startUpSlot.endScheduleLoad
    else (s.succeedLoad es).enableFromTime Sup.levelRelease
  | .error (i, f) => if s.startUp.step = .entries then (s.failLoad i f).endScheduleLoad else s.failLoad i f

/-- SCHEDULE_LOAD_DONE: the oldest read of entries completes; the result of an abandoned load is disregarded (R175). -/
def Sup.loadDone (s : Sup) (m : Memory) : Sup :=
  match s.readsOf .entries with
  | [] => s
  | r :: _ =>
    let t := { s with mp.reads := s.mp.reads.filter fun q => q.number != r.number }
    if s.sched.load = some r.number then t.endLoad (r.finish m) else t

/-! ### Reload (R199, R200) -/

/-- Stage 3: the mirrors of each record window whose base has moved, with the blocks' current values. -/
def Sup.moveMirrors (s : Sup) (old : List Window) : Sup :=
  let new := s.chart.windows
  let moved := fun c => windowBase old c != windowBase new c
  let s1 := if moved .light then s.queueMirror .light 0 (word s.lamp.demand.level.code) else s
  let claims : List Claimant := [.panel, .lectern, .campus, .service, .schedule]
  let s2 :=
    if moved .claim then
      claims.foldl (fun t c => t.queueMirror .claim c.offset (t.source.claims.get c).word.encode) s1
    else s1
  let s3 := if moved .mute then s2.queueMirror .mute 0 (word s2.source.requestedMute.code) else s2
  let s4 := if moved .geometry then s3.queueTrim (List.range 8) else s3
  let ws := clockWords s.room.timeOfWeek
  let s5 :=
    if moved .clock then (s4.queueMirror .clock 0 (wordAt ws 0)).queueMirror .clock 1 (wordAt ws 1) else s4
  if moved .status then s5.queueStatuses (List.range 32) else s5

/-- A record being written when its ring restarts is lost to the new ring: its write ends, and the record, still in the
queue, is written again into the new ring (R192, log 22). -/
def loseRecord : Option Access → Option Access
  | some (.record start r) => some (.lostRecord start r)
  | a => a

/-- Stage 4: the ring restarts if its base or count changed, otherwise RING is judged again (R192, R195). -/
def Sup.restartRing (s : Sup) (old : RingParams) : Sup :=
  if s.chart.ring.base = old.base && s.chart.ring.count = old.count then s.judgeRing
  else
    (({ s with
        ring.head := 0, ring.tail := 0, ring.overflow := false, ring.unread := []
        mp.access := loseRecord s.mp.access }.queueStatuses [15, 16])).judgeRing

/-- Stage 5, one port: a NORMAL port at or above the new fault limit with isolation enabled is quarantined (R11). -/
def Sup.requarantine (s : Sup) (p : Port) : Sup :=
  if !(s.port p).quarantined && s.chart.port.isolation && s.chart.port.faultLimit ≤ (s.port p).faults then
    s.enterQuarantine p
  else s

/-- Stage 5: the quarantines in port number order; a change of arbiter mode starts the pointers afresh (R11, R33). -/
def Sup.reloadPorts (s : Sup) (old : PortParams) : Sup :=
  let t := allPorts.foldl Sup.requarantine s
  if s.chart.port.fixedArbiter = old.fixedArbiter then t
  else t.restartArbiter

/-- Stage 6: the blocks act on the new charter. Lamp A's stage is judged, with the strike decision that an entry into SPENT makes, before
lamp B's (log 46). -/
def Sup.reloadBlocks (s : Sup) (old : LampParams) : Sup :=
  let s1 := s.resolve.settleNotices.reloadGeometry
  let s2 := if s1.chart.lamp.dual = old.dual then s1 else { s1 with lamp.duty := none }
  ((s2.judgeStage Sup.strikeDecision .a).judgeStage Sup.strikeDecision .b).strikeDecision

/-- The end of a reload whose words are valid (R200). -/
def Sup.putInForce (s : Sup) (ch : Charter) : Sup :=
  let old := s.chart
  let s1 := { s with charter := some ch, isFallback := false }
  let s2 := (s1.tearDown fun _ => true).moveMirrors old.windows
  let s3 := (s2.restartRing old.ring).reloadPorts old.port
  let low := 1 + (if s3.trimFails then 128 else 0)
  let s4 := ((s3.reloadBlocks old.lamp).charterReport .charterLoaded low).queueStatus 24
  { s4 with admission := .admitting }

/-- CHARTER_RELOAD_READ_DONE (R199). -/
def Sup.reloadRead (s : Sup) (m : Memory) : Sup :=
  if s.reloading then
    let rs := (s.readsOf .charterReload).flatMap fun r => r.finish m
    let t := { s.dropReads .charterReload with reloading := false }
    match judgeCharter rs with
    | .ok ch => t.putInForce ch
    | .error f => { (t.charterReport .reloadFail f.number).raise .setup with admission := .admitting }
  else s

/-! ### Power-fail warning (R115, R201) -/

/-- The retained records have been read (R115). -/
def StartStep.recordsKnown : StartStep → Bool := StartStep.adopted

/-- PWRFAIL becomes asserted: flushes and the shutdown record, once the records have been read (R115). Lamp A is flushed before lamp B
(log 46). -/
def Sup.powerFails (s : Sup) : Sup :=
  if s.lines.pwrfail then s
  else
    let t := { s with lines.pwrfail := true }
    if t.startUp.step.recordsKnown then ((t.flush .a).flush .b).rewriteShutdown else t

end Sys2Proof.Machine
end

