-- ==== Sys2Proof/WellFormed.lean ====
section
/-! DEFINITION. Which commands the bus can express: R1 encodes the length so that only 1 to 8 can be expressed. Every
other operand is held to its range by its type. -/

namespace Sys2Proof

/-- A length the bus can express (R1). -/
def lengthExpressible (n : Nat) : Bool := 1 ≤ n && n ≤ 8

/-- The check a command passes before it means anything: its length, where it has one, is 1 to 8. -/
def Instr.wellFormed : Instr → Bool
  | .portRead _ _ n => lengthExpressible n
  | .forwardedWrite _ _ bs => lengthExpressible bs.length
  | .mergedWrite _ _ bs => lengthExpressible bs.length
  | .trimWrite _ _ bs => lengthExpressible bs.length
  | .writeHeader _ _ n => lengthExpressible n
  | .powerOnReset => true
  | .lineReset => true
  | .charterLoad => true
  | .retainedRecordsRead => true
  | .rebuild => true
  | .scheduleHeaderRead => true
  | .scheduleLoadDone => true
  | .beatTimeout _ => true
  | .ringTail _ _ => true
  | .lightWrite _ _ => true
  | .claimWrite _ _ _ => true
  | .muteWrite _ _ => true
  | .clockSet _ _ _ => true
  | .scheduleEnable _ _ => true
  | .scheduleDisable _ _ => true
  | .scheduleHeaderWrite _ _ => true
  | .portRelease _ _ => true
  | .takeoverStart _ => true
  | .takeoverEnd _ => true
  | .lampClear _ _ => true
  | .lampReplace _ _ _ => true
  | .charterReload _ _ => true
  | .charterReloadReadDone => true
  | .memoryAccessDone _ => true
  | .keyEdge _ => true
  | .keyDebounceExpiry => true
  | .takeoverExpiry => true
  | .holdExpiry _ => true
  | .lampokAssert _ => true
  | .lampokDeassert _ => true
  | .strikeTimeout _ => true
  | .warmupExpiry _ => true
  | .cooldownExpiry _ => true
  | .pwrfail => true
  | .secondTick => true
  | .graceExpiry => true
  | .signalEdge _ _ => true
  | .signalDebounceExpiry _ => true
  | .frameEdge => true
  | .substituteTick => true
  | .noticeExpiry _ => true
  | .writeBeat _ _ => true
  | .pwrfailDeassert => true

end Sys2Proof
end

