-- ==== Sys2Proof/Machine/Commands.lean ====
section
/-! DEFINITION. What the meanings of all commands share: a command changes the supervisor and then the arbiter makes a grant
if the memory port is free (R31); memory changes only where an access completes or is abandoned. -/

namespace Sys2Proof.Machine

/-- A command whose effect on the supervisor is `f`; the arbiter then makes its grant (R31, log 36). -/
def act (f : Sup → Sup) (s : State) : Host.Outcome State Fault Refusal := .next { s with sup := (f s.sup).grant }

/-- A command that carries a length: refused where the bus cannot express the length (R1). -/
def actLength (n : Nat) (f : Sup → Sup) (s : State) : Host.Outcome State Fault Refusal :=
  if lengthExpressible n then act f s else .refused .inexpressible

/-- A reset: the access in progress is abandoned and the supervisor takes its reset state (R15, R40). -/
def actReset (f : Sup → Sup) (s : State) : Host.Outcome State Fault Refusal :=
  .next { s with mem := s.mem.abandon s.sup.ticket s.sup.mp.access, sup := f s.sup }

end Sys2Proof.Machine
end

