-- ==== Sys2Proof/Machine/RecordWrites.lean ====
section
/-! DEFINITION. The meanings of the whole writes of records: each is a write to the record's place in the map in force
(log 2), taken as every write is (R6, R7, R24 to R28). -/

namespace Sys2Proof.Machine

/-- RING_TAIL: a write of STATUS offset 16 (R28, R191). -/
def execRingTail (p : Port) (w : Word) (s : State) : Host.Outcome State Fault Refusal :=
  act (fun u => u.sendRecord p .status 16 [w]) s

/-- LIGHT_WRITE (R76, R77). -/
def execLightWrite (p : Port) (w : Word) (s : State) : Host.Outcome State Fault Refusal :=
  act (fun u => u.sendRecord p .light 0 [w]) s

/-- CLAIM_WRITE (R123). -/
def execClaimWrite (p : Port) (offset : Fin 8) (w : Word) (s : State) : Host.Outcome State Fault Refusal :=
  act (fun u => u.sendRecord p .claim offset.val [w]) s

/-- MUTE_WRITE (R138). -/
def execMuteWrite (p : Port) (w : Word) (s : State) : Host.Outcome State Fault Refusal :=
  act (fun u => u.sendRecord p .mute 0 [w]) s

/-- TRIM_WRITE (R160). -/
def execTrimWrite (p : Port) (offset : Fin 8) (beats : List Word) (s : State) : Host.Outcome State Fault Refusal :=
  actLength beats.length (fun u => u.sendRecord p .geometry offset.val beats) s

/-- CLOCK_SET (R171, R185). -/
def execClockSet (p : Port) (dayHour minuteSecond : Word) (s : State) : Host.Outcome State Fault Refusal :=
  act (fun u => u.sendRecord p .clock 0 [dayHour, minuteSecond]) s

/-- First word of the SCHEDULE window, its header (R18). -/
def scheduleBase : Nat := 0x3E000

/-- SCHEDULE_ENABLE: a header with enable ON (R174, R175). -/
def execScheduleEnable (p : Port) (count : BitVec 6) (s : State) : Host.Outcome State Fault Refusal :=
  act (fun u => u.sendWrite p scheduleBase [headerWord count.toNat true]) s

/-- SCHEDULE_DISABLE: a header with enable OFF (R174, R184). -/
def execScheduleDisable (p : Port) (count : BitVec 6) (s : State) : Host.Outcome State Fault Refusal :=
  act (fun u => u.sendWrite p scheduleBase [headerWord count.toNat false]) s

/-- SCHEDULE_HEADER_WRITE (R174). -/
def execScheduleHeaderWrite (p : Port) (w : Word) (s : State) : Host.Outcome State Fault Refusal :=
  act (fun u => u.sendWrite p scheduleBase [w]) s

/-- PORT_RELEASE (R13). -/
def execPortRelease (p : Port) (w : Word) (s : State) : Host.Outcome State Fault Refusal :=
  act (fun u => u.sendRecord p .service 0 [w]) s

/-- TAKEOVER START (R45). -/
def execTakeoverStart (p : Port) (s : State) : Host.Outcome State Fault Refusal :=
  act (fun u => u.sendRecord p .service 1 [1]) s

/-- TAKEOVER END (R45). -/
def execTakeoverEnd (p : Port) (s : State) : Host.Outcome State Fault Refusal :=
  act (fun u => u.sendRecord p .service 1 [2]) s

/-- LAMP_CLEAR (R100). -/
def execLampClear (p : Port) (w : Word) (s : State) : Host.Outcome State Fault Refusal :=
  act (fun u => u.sendRecord p .service 4 [w]) s

/-- LAMP_REPLACE (R101, R113). -/
def execLampReplace (p : Port) (lamp tag : Word) (s : State) : Host.Outcome State Fault Refusal :=
  act (fun u => u.sendRecord p .service 2 [lamp, tag]) s

/-- CHARTER_RELOAD (R199). -/
def execCharterReload (p : Port) (w : Word) (s : State) : Host.Outcome State Fault Refusal :=
  act (fun u => u.sendRecord p .service 5 [w]) s

end Sys2Proof.Machine
end

