-- ==== Sys2Proof/Machine/Resets.lean ====
section
/-! DEFINITION. The meanings of the two resets. -/

namespace Sys2Proof.Machine

/-- POWER_ON_RESET (R15, R40, R53, R74, R79, R103, R120, R142, R156, R167, R172, R188, R192). -/
def execPowerOnReset (s : State) : Host.Outcome State Fault Refusal := actReset Sup.powerOn s

/-- LINE_RESET: as a power-on reset, but the room clock is kept (R172) and start-up rebuilds from the mirrors (R79, R143,
R168). -/
def execLineReset (s : State) : Host.Outcome State Fault Refusal := actReset Sup.lineReset s

end Sys2Proof.Machine
end

