-- ==== Sys2Proof/Machine/StartSteps.lean ====
section
/-! DEFINITION. The meanings of the steps of start-up (R198) and of the end of a charter reload (R199). Each completes the
internal read it is named for (log 8); at any other step of start-up it has no effect. -/

namespace Sys2Proof.Machine

/-- CHARTER_LOAD: step 1 of start-up (R198, R196, R197). -/
def execCharterLoad (s : State) : Host.Outcome State Fault Refusal := act (fun u => u.charterLoaded s.mem) s

/-- RETAINED_RECORDS_READ: steps 2 and 3 (R116, R117). -/
def execRetainedRecordsRead (s : State) : Host.Outcome State Fault Refusal := act (fun u => u.recordsRead s.mem) s

/-- REBUILD: step 4 (R198, R79, R104, R142, R143, R167, R168). -/
def execRebuild (s : State) : Host.Outcome State Fault Refusal := act (fun u => u.rebuilt s.mem) s

/-- SCHEDULE_HEADER_READ: step 5, and steps 6 and 7 when no load follows (R188, R118). -/
def execScheduleHeaderRead (s : State) : Host.Outcome State Fault Refusal := act (fun u => u.headerRead s.mem) s

/-- SCHEDULE_LOAD_DONE: the end of a load, and at start-up steps 6 and 7 (R176, R188, R118). -/
def execScheduleLoadDone (s : State) : Host.Outcome State Fault Refusal := act (fun u => u.loadDone s.mem) s

/-- CHARTER_RELOAD_READ_DONE (R199, R200). -/
def execCharterReloadReadDone (s : State) : Host.Outcome State Fault Refusal := act (fun u => u.reloadRead s.mem) s

end Sys2Proof.Machine
end

