-- ==== Sys2Proof/Machine/LineEvents.lean ====
section
/-! DEFINITION. The meanings of the edges of the input lines, and the frame tick both tick commands give. -/

namespace Sys2Proof.Machine

/-! ### Frame ticks (R131) -/

/-- Ticks reach the sequencer and the geometry unit from the end of the rebuild step on (R142, R143, R167, R168). -/
def StartStep.takesTicks : StartStep → Bool
  | .charterLoad => false
  | .records => false
  | .rebuild => false
  | .header => true
  | .entries => true
  | .running => true

/-- The tick taken by the sequencer, then by the geometry unit, which reads LIVE_MUTE as the sequencer has left it. -/
def Sup.tickSequencerFirst (s : Sup) : Sup := s.tickSequencer.tickGeometry s.tickSequencer.seq.liveMute

/-- The tick taken by the geometry unit, which reads LIVE_MUTE as it stands, then by the sequencer. -/
def Sup.tickGeometryFirst (s : Sup) : Sup := (s.tickGeometry s.seq.liveMute).tickSequencer

/-- A tick reaches the sequencer and the geometry unit (R131). Where the sequencer changes LIVE_MUTE at this tick, which of the two takes
it first, with all that it writes, is a free value (R139, R162); at every other tick the sequencer is first (log 18). -/
def Sup.frameTick (s : Sup) : Sup :=
  if !s.startUp.step.takesTicks then s
  else if s.tickSequencer.seq.liveMute = s.seq.liveMute then s.tickSequencerFirst
  else if Config.geometryTickFirst s.ticket then s.useTicket.tickGeometryFirst
  else s.useTicket.tickSequencerFirst

/-- FRAME_EDGE: a frame tick; the 50 ms watch starts again (R131). -/
def execFrameEdge (s : State) : Host.Outcome State Fault Refusal :=
  act (fun u => { u with seq.nextTick := u.after fiftyMillis }.frameTick) s

/-! ### Edges -/

/-- KEY_EDGE (R44). -/
def execKeyEdge (on : Bool) (s : State) : Host.Outcome State Fault Refusal := act (fun u => u.keyLine on) s

/-- LAMPOK_ASSERT (R87). -/
def execLampokAssert (l : Lamp) (s : State) : Host.Outcome State Fault Refusal := act (fun u => u.lampokUp l) s

/-- LAMPOK_DEASSERT (R87, R95). -/
def execLampokDeassert (l : Lamp) (s : State) : Host.Outcome State Fault Refusal := act (fun u => u.lampokDown l) s

/-- SIGNAL_EDGE (R122). -/
def execSignalEdge (input : Fin 8) (present : Bool) (s : State) : Host.Outcome State Fault Refusal :=
  act (fun u => u.signalLine input present) s

/-- PWRFAIL becomes asserted (R115). -/
def execPwrfail (s : State) : Host.Outcome State Fault Refusal := act Sup.powerFails s

/-- PWRFAIL becomes deasserted: no effect beyond the line (R115). -/
def execPwrfailDeassert (s : State) : Host.Outcome State Fault Refusal :=
  act (fun u => { u with lines.pwrfail := false }) s

end Sys2Proof.Machine
end

