-- ==== Sys2Proof/Machine/Timers.lean ====
section
/-! DEFINITION. The meanings of the expiries and ticks of the part's own timers. An expiry of a timer that is not running has
no effect; an expiry of one that runs says that its end time has come (log 4). -/

namespace Sys2Proof.Machine

/-- KEY_DEBOUNCE_EXPIRY (R44, R47). -/
def execKeyDebounceExpiry (s : State) : Host.Outcome State Fault Refusal :=
  act (fun u => u.keySettled Sup.levelRelease) s

/-- TAKEOVER_EXPIRY (R46, R47). -/
def execTakeoverExpiry (s : State) : Host.Outcome State Fault Refusal :=
  act (fun u => u.takeoverTimedOut Sup.levelRelease) s

/-- HOLD_EXPIRY of the entry with a sequence number (R69). -/
def execHoldExpiry (sequence : Word) (s : State) : Host.Outcome State Fault Refusal :=
  act (fun u => u.expireEntry sequence) s

/-- The timer of a lamp in a state reaches its end time, and `f` says what follows. -/
def Sup.lampTimer (s : Sup) (l : Lamp) (st : LampState) (f : Sup → Sup) : Sup :=
  if (s.lamp.lamps.get l).state = st then
    match (s.lamp.lamps.get l).timer with
    | some t => f (s.reach t)
    | none => s
  else s

/-- STRIKE_TIMEOUT (R93). -/
def execStrikeTimeout (l : Lamp) (s : State) : Host.Outcome State Fault Refusal :=
  act (fun u => u.lampTimer l .striking fun v => v.strikeTimedOut l) s

/-- WARMUP_EXPIRY (R88). -/
def execWarmupExpiry (l : Lamp) (s : State) : Host.Outcome State Fault Refusal :=
  act (fun u => u.lampTimer l .warming fun v => v.warmedUp Sup.litRelease l) s

/-- COOLDOWN_EXPIRY (R91, R97). -/
def execCooldownExpiry (l : Lamp) (s : State) : Host.Outcome State Fault Refusal :=
  act (fun u => u.lampTimer l .cooling fun v => v.cooledDown l) s

/-- SECOND_TICK (R169, R106, R170, R178, R195). -/
def execSecondTick (s : State) : Host.Outcome State Fault Refusal := act (fun u => u.tickSecond Sup.levelRelease) s

/-- GRACE_EXPIRY (R183). -/
def execGraceExpiry (s : State) : Host.Outcome State Fault Refusal := act Sup.expireGrace s

/-- SIGNAL_DEBOUNCE_EXPIRY (R122, R127). -/
def execSignalDebounceExpiry (input : Fin 8) (s : State) : Host.Outcome State Fault Refusal :=
  act (fun u => u.signalSettled input) s

/-- A substitute tick comes at its time, and the next follows 1/60 s later (R131). -/
def Sup.substituteTick (s : Sup) : Sup :=
  { s.reach s.seq.nextTick with seq.nextTick := (s.reach s.seq.nextTick).after sixtieth }.frameTick

/-- SUBSTITUTE_TICK (R131). -/
def execSubstituteTick (s : State) : Host.Outcome State Fault Refusal := act Sup.substituteTick s

/-- NOTICE_EXPIRY of a kind (R149). -/
def execNoticeExpiry (k : NoticeKind) (s : State) : Host.Outcome State Fault Refusal :=
  act (fun u => u.expireNotice k) s

/-! ### What comes when no command waits (log 5) -/

def Port.due (s : Sup) (p : Port) : Bool :=
  match (s.port p).collection, (s.port p).timer with
  | .collecting _ _ _, some t => t ≤ s.time.crystal
  | _, _ => false

/-- An end time has come. -/
def Sup.reached (s : Sup) : Option Nat → Bool
  | some t => t ≤ s.time.crystal
  | none => false

def Sup.lampDue (s : Sup) (l : Lamp) (st : LampState) : Bool :=
  (s.lamp.lamps.get l).state == st && s.reached (s.lamp.lamps.get l).timer

/-- All reads a block asked for are complete. -/
def Sup.readsComplete (s : Sup) (r : Reader) : Bool := (s.readsOf r).all InternalRead.complete

def bothLamps : List Lamp := [.a, .b]

def allKinds : List NoticeKind :=
  [.slotEnding, .examLock, .serviceTakeover, .lampWorn, .lampFailed, .noLamp, .noSignal]

/-- The oldest read of schedule entries is complete. -/
def Sup.entriesDue (s : Sup) : Bool :=
  match s.readsOf .entries with
  | [] => false
  | r :: _ => r.complete

/-- The part's own events, each with whether its time has come, in the order step makes them. -/
def Sup.ownEvents (s : Sup) : List (Bool × Instr) :=
  [(s.startUp.step == .charterLoad && s.readsComplete .charterStart, .charterLoad),
    (s.startUp.step == .records && s.readsComplete .records, .retainedRecordsRead),
    (s.startUp.step == .rebuild && s.readsComplete .rebuild, .rebuild),
    (s.startUp.step == .header && s.readsComplete .header, .scheduleHeaderRead),
    (s.entriesDue, .scheduleLoadDone), (s.reloading && s.readsComplete .charterReload, .charterReloadReadDone),
    (s.time.nextSecond ≤ s.time.crystal, .secondTick), (s.reached s.lock.keyInterval, .keyDebounceExpiry),
    (s.reached s.lock.takeover, .takeoverExpiry), (s.seq.nextTick ≤ s.time.crystal, .substituteTick),
    (s.sched.grace.any s.graceOver, .graceExpiry)] ++
  allPorts.map (fun p => (Port.due s p, .beatTimeout p)) ++
  bothLamps.flatMap (fun l =>
    [(s.lampDue l .striking, .strikeTimeout l), (s.lampDue l .warming, .warmupExpiry l),
      (s.lampDue l .cooling, .cooldownExpiry l)]) ++
  (List.finRange 8).map (fun i => (s.reached (s.signal i).interval, .signalDebounceExpiry i)) ++
  allKinds.map (fun k => (s.reached (s.expiryOf k), .noticeExpiry k)) ++
  s.hold.entries.map (fun e => (s.isAged e, .holdExpiry e.sequence))

/-- The event of the part's own that comes next, if one's time has come. -/
def Sup.dueEvent (s : Sup) : Option Instr :=
  match s.ownEvents.find? (·.1) with
  | some e => some e.2
  | none => none

/-- One crystal period passes. -/
def idlePeriod (s : State) : Host.Outcome State Fault Refusal :=
  act (fun u => { u with time.crystal := u.time.crystal + 1 }) s

end Sys2Proof.Machine
end

