-- ==== Sys2Proof/Machine/Traffic.lean ====
section
/-! DEFINITION. The meanings of the traffic of a port that is no record write: reads, forwarded and merged writes, writes
collected beat by beat, the beat timeout; and the completion of an access by parameter memory. -/

namespace Sys2Proof.Machine

/-- PORT_READ (R2, R6, R7, R23). -/
def execPortRead (p : Port) (start : Addr) (length : Nat) (s : State) : Host.Outcome State Fault Refusal :=
  actLength length (fun u => u.readHeader p start.toNat length) s

/-- FORWARDED_WRITE (R24 to R26): a whole write; where it lies decides its course, as for every write (log 1). -/
def execForwardedWrite (p : Port) (start : Addr) (beats : List Word) (s : State) : Host.Outcome State Fault Refusal :=
  actLength beats.length (fun u => u.sendWrite p start.toNat beats) s

/-- MERGED_WRITE (R28): a whole write; where it lies decides its course (log 1). -/
def execMergedWrite (p : Port) (start : Addr) (beats : List Word) (s : State) : Host.Outcome State Fault Refusal :=
  actLength beats.length (fun u => u.sendWrite p start.toNat beats) s

/-- WRITE_HEADER (R2, R8). -/
def execWriteHeader (p : Port) (start : Addr) (length : Nat) (s : State) : Host.Outcome State Fault Refusal :=
  actLength length (fun u => u.writeHeader p start.toNat length) s

/-- WRITE_BEAT (R2, R8); a last beat completes the write (log 3). -/
def execWriteBeat (p : Port) (w : Word) (s : State) : Host.Outcome State Fault Refusal := act (fun u => u.beat p w) s

/-- BEAT_TIMEOUT (R8, R9, R10). -/
def execBeatTimeout (p : Port) (s : State) : Host.Outcome State Fault Refusal := act (fun u => u.beatTimedOut p) s

/-- The access in progress completes: memory takes its effect, and its requester is answered or served (R31, R35). -/
def finishAccess (failing : List Nat) (s : State) : State :=
  match s.sup.mp.access with
  | some a =>
    let m := a.effect s.mem failing
    { s with mem := m, sup := s.sup.accessDone m a }
  | none => s

/-- MEMORY_ACCESS_DONE (R31, R35): with no grant made yet, the arbiter first makes one (log 35). -/
def execMemoryAccessDone (failing : List Addr) (s : State) : Host.Outcome State Fault Refusal :=
  act id (finishAccess (failing.map BitVec.toNat) { s with sup := s.sup.grant })

end Sys2Proof.Machine
end

