-- ==== Sys2Proof/Machine/Dispatch.lean ====
section
/-! DEFINITION. The meaning of each command: one arm for each constructor of Instr. -/

namespace Sys2Proof.Machine

/-- The effect of a command on everything but the queue. -/
def exec (i : Instr) (s : State) : Host.Outcome State Fault Refusal :=
  match i with
  | .powerOnReset => Sys2Proof.Machine.execPowerOnReset s
  | .lineReset => Sys2Proof.Machine.execLineReset s
  | .charterLoad => Sys2Proof.Machine.execCharterLoad s
  | .retainedRecordsRead => Sys2Proof.Machine.execRetainedRecordsRead s
  | .rebuild => Sys2Proof.Machine.execRebuild s
  | .scheduleHeaderRead => Sys2Proof.Machine.execScheduleHeaderRead s
  | .scheduleLoadDone => Sys2Proof.Machine.execScheduleLoadDone s
  | .beatTimeout p => Sys2Proof.Machine.execBeatTimeout p s
  | .portRead p start length => Sys2Proof.Machine.execPortRead p start length s
  | .forwardedWrite p start beats => Sys2Proof.Machine.execForwardedWrite p start beats s
  | .mergedWrite p start beats => Sys2Proof.Machine.execMergedWrite p start beats s
  | .ringTail p w => Sys2Proof.Machine.execRingTail p w s
  | .lightWrite p w => Sys2Proof.Machine.execLightWrite p w s
  | .claimWrite p offset w => Sys2Proof.Machine.execClaimWrite p offset w s
  | .muteWrite p w => Sys2Proof.Machine.execMuteWrite p w s
  | .trimWrite p offset beats => Sys2Proof.Machine.execTrimWrite p offset beats s
  | .clockSet p dayHour minuteSecond => Sys2Proof.Machine.execClockSet p dayHour minuteSecond s
  | .scheduleEnable p count => Sys2Proof.Machine.execScheduleEnable p count s
  | .scheduleDisable p count => Sys2Proof.Machine.execScheduleDisable p count s
  | .scheduleHeaderWrite p w => Sys2Proof.Machine.execScheduleHeaderWrite p w s
  | .portRelease p w => Sys2Proof.Machine.execPortRelease p w s
  | .takeoverStart p => Sys2Proof.Machine.execTakeoverStart p s
  | .takeoverEnd p => Sys2Proof.Machine.execTakeoverEnd p s
  | .lampClear p w => Sys2Proof.Machine.execLampClear p w s
  | .lampReplace p lamp tag => Sys2Proof.Machine.execLampReplace p lamp tag s
  | .charterReload p w => Sys2Proof.Machine.execCharterReload p w s
  | .charterReloadReadDone => Sys2Proof.Machine.execCharterReloadReadDone s
  | .memoryAccessDone failing => Sys2Proof.Machine.execMemoryAccessDone failing s
  | .keyEdge on => Sys2Proof.Machine.execKeyEdge on s
  | .keyDebounceExpiry => Sys2Proof.Machine.execKeyDebounceExpiry s
  | .takeoverExpiry => Sys2Proof.Machine.execTakeoverExpiry s
  | .holdExpiry sequence => Sys2Proof.Machine.execHoldExpiry sequence s
  | .lampokAssert l => Sys2Proof.Machine.execLampokAssert l s
  | .lampokDeassert l => Sys2Proof.Machine.execLampokDeassert l s
  | .strikeTimeout l => Sys2Proof.Machine.execStrikeTimeout l s
  | .warmupExpiry l => Sys2Proof.Machine.execWarmupExpiry l s
  | .cooldownExpiry l => Sys2Proof.Machine.execCooldownExpiry l s
  | .pwrfail => Sys2Proof.Machine.execPwrfail s
  | .secondTick => Sys2Proof.Machine.execSecondTick s
  | .graceExpiry => Sys2Proof.Machine.execGraceExpiry s
  | .signalEdge input present => Sys2Proof.Machine.execSignalEdge input present s
  | .signalDebounceExpiry input => Sys2Proof.Machine.execSignalDebounceExpiry input s
  | .frameEdge => Sys2Proof.Machine.execFrameEdge s
  | .substituteTick => Sys2Proof.Machine.execSubstituteTick s
  | .noticeExpiry k => Sys2Proof.Machine.execNoticeExpiry k s
  | .writeHeader p start length => Sys2Proof.Machine.execWriteHeader p start length s
  | .writeBeat p w => Sys2Proof.Machine.execWriteBeat p w s
  | .pwrfailDeassert => Sys2Proof.Machine.execPwrfailDeassert s

end Sys2Proof.Machine
end

