-- ==== Sys2Proof/Machine/Step.lean ====
section
/-! DEFINITION. One step of the machine: the command at the front of the queue; on an empty queue the part's own next event,
or one crystal period. -/

namespace Sys2Proof.Machine

/-- One step (log 5). -/
def step (s : State) : Host.Outcome State Fault Refusal :=
  match s.pending with
  | c :: rest => exec c { s with pending := rest }
  | [] =>
    match s.sup.dueEvent with
    | some c => exec c s
    | none => idlePeriod s

/-- The state with the command that a word spells by the table's bits at the front of the queue; the table gives no bits, so
no word spells one and the state stays as it is (log 37). -/
def State.withFetchWord (s : State) (nbits w : Nat) : State :=
  match decodeTableWord nbits w with
  | some c => { s with pending := c :: s.pending }
  | none => s

end Sys2Proof.Machine
end

