-- ==== Sys2Proof/Safety.lean ====
section
/-! DEFINITION. What claims about the 7A are stated in: the laws the spec gives its blocks, as predicates of a state, and the
conditions under which a port's request is taken. -/

namespace Sys2Proof.Machine

/-! ### Laws of the blocks -/

/-- Parameter memory keeps its canonical form. -/
def State.memoryLaw (s : State) : Prop := s.mem.wf = true

/-- R85 of one lamp: a command other than OFF only in STRIKING, WARMING or LIT; the failure-pending mark only in COOLING; a
FAILED lamp's and a DARK lamp's command is OFF by the first. -/
def LampCell.law (c : LampCell) : Prop := (c.command ≠ .off → c.state.serves = true) ∧ (c.marked = true → c.state = .cooling)

/-- R85 of both lamps. -/
def State.lampLaw (s : State) : Prop := s.sup.lamp.lamps.a.law ∧ s.sup.lamp.lamps.b.law

/-- R41: the lock level is the highest of the three contributions. -/
def State.lockLaw (s : State) : Prop := s.sup.lock.level = s.sup.lock.highest

/-- R132: LIVE_MUTE is MUTED in MUTING and SETTLING, and LIVE_SELECT is the target in IDLE. -/
def State.pictureLaw (s : State) : Prop :=
  (s.sup.seq.state = .muting → s.sup.seq.liveMute = .muted) ∧ (s.sup.seq.state = .settling → s.sup.seq.liveMute = .muted) ∧
    (s.sup.seq.state = .idle → s.sup.seq.liveSelect = s.sup.source.target)

/-- R173: while no slot is current the schedule claim is WITHDRAW and the schedule contribution is OPEN. -/
def State.slotLaw (s : State) : Prop :=
  s.sup.sched.current = none →
    s.sup.source.claims.schedule.word.source = none ∧ s.sup.lock.schedule = .unlocked

/-- R57: at most 24 entries, at most 64 pool words in use, and no two entries of one port and start address. -/
def State.holdLaw (s : State) : Prop :=
  s.sup.hold.entries.length ≤ Config.holdEntries ∧ s.sup.poolInUse ≤ Config.poolWords ∧
    s.sup.hold.entries.Pairwise fun d e => ¬(d.port = e.port ∧ d.start = e.start)

/-- R146 and R150: at most six entries, no two live ones of a kind, no kind both live and pending, each kind pending at most
once and in code order, kinds pending only while the stack is full, and the top entry live. -/
def State.noticeLaw (s : State) : Prop :=
  let n := s.sup.notice
  n.stack.length ≤ Config.stackPlaces ∧
    n.stack.Pairwise (fun d e => ¬(d.live = true ∧ e.live = true ∧ d.kind = e.kind)) ∧
    n.pending.Pairwise (fun j k => j.code < k.code) ∧ (∀ k ∈ n.pending, ∀ e ∈ n.stack, e.live = true → e.kind ≠ k) ∧
    (n.pending ≠ [] → n.stack.length = Config.stackPlaces) ∧ (∀ e, n.stack.getLast? = some e → e.live = true)

/-- Coordinates inside the envelope. -/
def Corners.inside (c : Corners) (g : GeometryParams) : Prop :=
  ∀ i, i < 8 → g.minima.at i ≤ c.at i ∧ c.at i ≤ g.maxima.at i

/-- R161 with R157 and R159: from the end of the charter load step on a charter is in force; its envelope is in order; and once
the rebuild step is done the target and the live corners lie inside it. -/
def State.cornerLaw (s : State) : Prop :=
  (∀ ch, s.sup.charter = some ch → ∀ i, i < 8 → ch.geometry.minima.at i ≤ ch.geometry.maxima.at i) ∧
    (s.sup.startUp.step ≠ .charterLoad → s.sup.charter.isSome = true) ∧
    (s.sup.startUp.step.takesTicks = true →
      s.sup.geo.target.inside s.sup.geoParams ∧ s.sup.geo.live.inside s.sup.geoParams)

/-- R6 and R75: until start-up ends, admission is STALLED, no reload is under way and no write is held. -/
def State.startLaw (s : State) : Prop :=
  s.sup.startUp.step ≠ .running →
    s.sup.admission = .stalled ∧ s.sup.reloading = false ∧ s.sup.hold.entries = []

/-- R56: at most 24 entries, their sequence numbers distinct, and the counter at a value that none of them holds. -/
def State.sequenceLaw (s : State) : Prop :=
  s.sup.hold.entries.length ≤ Config.holdEntries ∧ (s.sup.hold.entries.map (·.sequence)).Nodup ∧
    s.sup.hold.counter ∉ s.sup.hold.entries.map (·.sequence)

/-- R33: under a charter of arbiter mode FIXED the pointers stand at the first member of each ring. -/
def State.arbiterLaw (s : State) : Prop :=
  ∀ ch, s.sup.charter = some ch → ch.port.fixedArbiter = true → s.sup.mp.first = .internal ∧ s.sup.mp.second = .campus

/-- The entries of a table stand in the order in which they were made, by the model's own count of them (log 52). -/
def HoldTable.inOrder (h : HoldTable) : Prop := (h.entries.map (·.serial)).Pairwise (· < ·) ∧ ∀ e ∈ h.entries, e.serial < h.made

/-- R55: the order of the hold table is that in which its entries were made. -/
def State.serialLaw (s : State) : Prop := s.sup.hold.inOrder

/-- R20: the window map in force has one window of each record class, every window in use lies below the retained region, and no record
window shares a word with another. -/
def State.mapLaw (s : State) : Prop := ∀ ch, s.sup.charter = some ch → windowTableOk ch.windows = true

/-- R36 and R38: at most one control write waits for an address, and at most 16 records wait. -/
def State.queueLaw (s : State) : Prop := (s.sup.mp.control.map (·.1)).Nodup ∧ s.sup.mp.reports.length ≤ 16

/-- R114: once start-up has ended, the hot set of the shutdown record is that of the lamp states. -/
def State.hotLaw (s : State) : Prop :=
  s.sup.startUp.step = .running →
    ∀ l, s.sup.wear.hot.get l = true ↔ (s.sup.lamp.lamps.get l).state ≠ .dark ∧ (s.sup.lamp.lamps.get l).state ≠ .failed

/-- R122: the resolver holds the eight inputs. -/
def State.inputLaw (s : State) : Prop := s.sup.source.signals.length = 8

/-! ### What an event leaves alone -/

/-- The lines, the start-up step, the charter and the reload stand. -/
def Sup.keepsBase (s t : Sup) : Prop :=
  t.lines = s.lines ∧ t.startUp = s.startUp ∧ t.charter = s.charter ∧ t.isFallback = s.isFallback ∧
    t.reloading = s.reloading

/-- The admission state and the crystal stand. -/
def Sup.keepsClock (s t : Sup) : Prop := t.admission = s.admission ∧ t.time = s.time

def Sup.keepsLamps (s t : Sup) : Prop := t.lamp = s.lamp ∧ t.wear = s.wear

/-- The source resolver and the switch sequencer stand. -/
def Sup.keepsPicture (s t : Sup) : Prop := t.source = s.source ∧ t.seq = s.seq

/-- The room clock and the schedule controller stand. -/
def Sup.keepsRoom (s t : Sup) : Prop := t.room = s.room ∧ t.sched = s.sched

/-- The ring's indices and its unread records stand. -/
def Sup.keepsRing (s t : Sup) : Prop :=
  t.ring.head = s.ring.head ∧ t.ring.tail = s.ring.tail ∧ t.ring.unread = s.ring.unread

/-- Every block but the port controllers, the hold table and the memory port stands; of the report unit, all but the attention
set and the overflow flag. -/
def Sup.keepsBlocks (s t : Sup) : Prop :=
  s.keepsBase t ∧ s.keepsLamps t ∧ s.keepsPicture t ∧ s.keepsRoom t ∧ s.keepsRing t ∧ t.lock = s.lock ∧
    t.notice = s.notice ∧ t.geo = s.geo

/-- The ports other than one stand. -/
def Sup.keepsOthers (s t : Sup) (p : Port) : Prop := ∀ q, q ≠ p → t.port q = s.port q

/-- All ports stand. -/
def Sup.keepsPorts (s t : Sup) : Prop := t.ports = s.ports

/-- The command changes neither memory nor the queue. -/
def State.keepsMemory (s t : State) : Prop := t.mem = s.mem ∧ t.pending = s.pending

/-- After a write that is applied, the port's own held write to the same start address is gone, and the table is otherwise as it
was (R61). -/
def Sup.supersedes (s t : Sup) (p : Port) (start : Nat) : Prop :=
  t.hold.entries = s.hold.entries.filter (fun e => !(e.port == p && e.start == start)) ∧ t.hold.counter = s.hold.counter

/-- The port controller has answered: idle, timer stopped, the response given. -/
def Sup.answered (t : Sup) (p : Port) (r : Response) : Prop :=
  (t.port p).collection = .idle ∧ (t.port p).timer = none ∧ (t.port p).response = some r

/-- The port has been answered DONE: both its counts are 0 and its state stands (R3, R9, R12). -/
def Sup.answeredDone (s t : Sup) (p : Port) (data : List Word) : Prop :=
  t.answered p (.done data) ∧ (t.port p).faults = 0 ∧ (t.port p).waits = 0 ∧
    (t.port p).quarantined = (s.port p).quarantined

/-- No report record is made: what stands in the report queue stood there before. -/
def Sup.makesNoReport (s t : Sup) : Prop := ∀ r ∈ t.mp.reports, r ∈ s.mp.reports

/-- A report record made now (R189). -/
def Sup.reportOf (s : Sup) (k : ReportKind) (subject : Nat) (detail : Word) : Report :=
  { kind := k, subject := subject, uptime := s.room.uptime, detail := detail }

/-- The TORN records of a teardown of the entries a test admits, in sequence order, each of its port and window with its sequence
number (R70, R207). -/
def Sup.tornReports (s : Sup) (test : HoldEntry → Bool) : List Report :=
  (s.hold.entries.filter test).map fun e => s.reportOf .torn (e.port.code * 64 + e.window) e.sequence

/-- An event makes these report records and no others. They join the report queue in their order, behind what waits there; said where
the queue has room for them and the ring is not full, for a record is dropped otherwise (R38, R189). -/
def Sup.reportsOnly (s t : Sup) (rs : List Report) : Prop :=
  s.mp.reports.length + rs.length ≤ 16 → t.ringFull = false → t.mp.reports = s.mp.reports ++ rs

/-- An event makes these report records first; others may follow (R38, R189). -/
def Sup.reportsNext (s t : Sup) (rs : List Report) : Prop :=
  s.mp.reports.length + rs.length ≤ 16 → t.ringFull = false → ∃ later, t.mp.reports = s.mp.reports ++ rs ++ later

/-- An event makes this report record, among others perhaps; said where room is left in the queue, so that none of them was dropped
(R38, R189). -/
def Sup.reportsAlso (s t : Sup) (r : Report) : Prop :=
  t.mp.reports.length < 16 → t.ringFull = false → ∃ before after, t.mp.reports = s.mp.reports ++ before ++ r :: after

/-- A kind has been raised: it is live on the stack, or pending (R147). -/
def Sup.raised (s : Sup) (k : NoticeKind) : Prop :=
  (∃ e ∈ s.notice.stack, e.live = true ∧ e.kind = k) ∨ k ∈ s.notice.pending

/-- A record write has been taken: the port is answered DONE, its own held write to the same start is gone, and memory, the queue
and the crystal stand. -/
def State.takesRecord (s t : State) (p : Port) (start : Nat) : Prop :=
  s.keepsMemory t ∧ s.sup.answeredDone t.sup p [] ∧ s.sup.supersedes t.sup p start ∧ t.sup.time = s.sup.time

/-- Whether the shutdown record, as its words are judged, shows a lamp hot; an invalid record shows both hot (R116). -/
def shownHot (rs : List ReadWord) (l : Lamp) : Bool :=
  match judgeShutdown rs with
  | .ok (hot, _, _) => hot.get l
  | .error _ => true

/-- A lamp after a strike failure or a dropout at a crystal count: COOLING with its full cooldown, command OFF, one attempt more, and
the mark where the attempts reach the limit (R90, R93, R95, R96). -/
def failedAttempt (s : Sup) (l : Lamp) (now : Nat) : LampCell :=
  let c := s.lamp.lamps.get l
  { c with
    state := .cooling, command := .off, attempts := c.attempts + 1
    marked := decide (s.chart.lamp.attempts ≤ c.attempts + 1)
    timer := some (now + periodsOfSeconds s.chart.lamp.cooldown) }

/-- Start-up ends: admission is OPEN, the start count rises and the last reset cause is this reset's (R118, R198). -/
def Sup.starts (s t : Sup) : Prop :=
  t.startUp.step = .running ∧ t.admission = .admitting ∧ t.wear.startCount = s.wear.startCount + 1 ∧
    t.wear.lastCause = s.startUp.cause

/-! ### Lamps and the strike choice -/

/-- How far a lamp is from serving (R80, R83): 0 in STRIKING, WARMING or LIT; usable, 1 in DARK and 2 in COOLING; 3 where it cannot
serve. -/
def Sup.rank (s : Sup) (l : Lamp) : Nat :=
  let c := s.lamp.lamps.get l
  if c.state = .striking ∨ c.state = .warming ∨ c.state = .lit then 0
  else if c.marked = true ∨ (s.wear.lamps.get l).stage = .spent then 3
  else if c.state = .dark then 1
  else if c.state = .cooling then 2
  else 3

/-- The duty lamp of an ALTERNATE decision (R83): kept while it can serve; else the lamp nearer to serving, of two as near that of
lower wear, lamp A on a tie; none where neither can serve. -/
def Sup.dutyChosen (s : Sup) : Option Lamp :=
  let anew :=
    if s.rank .a = 3 ∧ s.rank .b = 3 then none
    else if s.rank .a < s.rank .b then some .a
    else if s.rank .b < s.rank .a then some .b
    else if s.wear.lamps.b.wear < s.wear.lamps.a.wear then some .b
    else some .a
  match s.lamp.duty with
  | some l => if s.rank l < 3 then some l else anew
  | none => anew

/-- A lamp struck now: STRIKING, or WARMING at once where its LAMPOK is asserted, with its timer and the command NORMAL (R86, R87). -/
def Sup.struck (s : Sup) (l : Lamp) : LampCell :=
  let lit := s.lines.lampok.get l
  { s.lamp.lamps.get l with
    state := if lit then .warming else .striking, command := .normal
    timer := some (s.after (periodsOfSeconds (if lit then s.chart.lamp.warmUp else s.chart.lamp.strike))) }

/-- The NO_LAMP flag is set exactly while the demand is ON and neither lamp can serve (R98). -/
def Sup.noLampExact (s : Sup) : Prop :=
  s.lamp.noLamp = true ↔ s.lamp.demand.level ≠ .off ∧ s.rank .a = 3 ∧ s.rank .b = 3

/-- A change of the NO_LAMP flag (R98): its start is reported with the demand level, raises the cause LAMP and the notice NO_LAMP; its
end ends the notice. -/
def Sup.noLampFollows (u t : Sup) : Prop :=
  (u.lamp.noLamp = false → t.lamp.noLamp = true →
    u.reportsAlso t (u.reportOf .noLamp 255 (word u.lamp.demand.level.code)) ∧ t.ring.attention.lamp = true ∧
      t.raised .noLamp) ∧
    (u.lamp.noLamp = true → t.lamp.noLamp = false → ¬t.raised .noLamp)

/-- A strike decision strikes a lamp, with the demand ON: in DUAL mode a lamp that is DARK and usable, in ALTERNATE mode the duty lamp
where it is DARK (R82, R83). -/
def Sup.strikes (u : Sup) (l : Lamp) : Prop :=
  u.lamp.demand.level ≠ .off ∧
    if u.chart.lamp.dual then u.rank l = 1 else u.dutyChosen = some l ∧ (u.lamp.lamps.get l).state = .dark

/-- What a strike decision on `u` leaves of the lamps, the duty lamp and the NO_LAMP flag in `t`: no duty lamp with the demand OFF or
in DUAL mode; each lamp that it strikes is struck, with a STRUCK report of its attempt count, and any other stands (R81 to R83,
R86, R98). -/
def Sup.decided (u t : Sup) : Prop :=
  (t.lamp.duty = if u.lamp.demand.level = .off ∨ u.chart.lamp.dual = true then none else u.dutyChosen) ∧
    (∀ l, u.strikes l →
      t.lamp.lamps.get l = u.struck l ∧
        u.reportsAlso t (u.reportOf .struck l.code (word (min (u.lamp.lamps.get l).attempts 65535)))) ∧
    (∀ l, ¬u.strikes l → t.lamp.lamps.get l = u.lamp.lamps.get l) ∧ t.noLampExact ∧ u.noLampFollows t

/-- A lamp's failure at the attempt limit transfers the demand episode (R97): ALTERNATE mode, the demand ON, the lamp the duty lamp,
and the other lamp one that can serve. -/
def Sup.transfers (s : Sup) (l : Lamp) : Prop :=
  s.chart.lamp.dual = false ∧ s.lamp.demand.level ≠ .off ∧ s.lamp.duty = some l ∧ s.rank l.other < 3

/-- What follows a strike failure or a dropout of a lamp at a crystal count (R96 to R98): below the attempt limit the other lamp and the
duty lamp stand; at the limit the transfer, with its report and the cause LAMP, and the strike decision. -/
def Sup.failsOver (s t : Sup) (l : Lamp) (now : Nat) : Prop :=
  let reached := s.chart.lamp.attempts ≤ (s.lamp.lamps.get l).attempts + 1
  let u :=
    { s with
      time := { s.time with crystal := now }
      lamp := { s.lamp with lamps := s.lamp.lamps.set l (failedAttempt s l now) } }
  (¬reached →
    t.lamp.lamps.get l.other = s.lamp.lamps.get l.other ∧ t.lamp.duty = s.lamp.duty ∧ t.noLampExact ∧ s.noLampFollows t) ∧
    (reached → ¬s.transfers l → u.decided t) ∧
    (reached → s.transfers l →
      { u with lamp := { u.lamp with duty := some l.other } }.decided t ∧ t.ring.attention.lamp = true ∧
        s.reportsAlso t (s.reportOf .transfer l.other.code (word l.code)))

/-- A lamp once it has been brought into agreement with a rebuilt demand (R104): a LIT lamp takes an ON level, or is taken to COOLING with
its full cooldown. -/
def Sup.agreed (s : Sup) (level : LightLevel) (l : Lamp) : LampCell :=
  let c := s.lamp.lamps.get l
  if c.state ≠ .lit then c
  else if level = .off then
    { c with
      state := .cooling, command := .off, marked := false
      timer := some (s.after (periodsOfSeconds s.chart.lamp.cooldown)) }
  else { c with command := level }

/-- How a lamp that does not serve may come to serve at a command (R81, R85): DARK and usable; at the end of its own cooldown, unmarked and
not SPENT; or mended by that command's record, a cleared lamp with its attempts 0, a SPENT one replaced and struck once (R100, R101). -/
def State.mayStrike (s t : State) (c : Instr) (l : Lamp) : Prop :=
  let cell := s.sup.lamp.lamps.get l
  let spent := (s.sup.wear.lamps.get l).stage = .spent
  (cell.state = .dark ∧ cell.marked = false ∧ ¬spent) ∨
    (cell.state = .cooling ∧ cell.marked = false ∧ ¬spent ∧ c = .cooldownExpiry l ∧
      ∃ e, cell.timer = some e ∧ e ≤ t.sup.time.crystal) ∨
    ((cell.state = .failed ∨ cell.state = .dark) ∧ (t.sup.lamp.lamps.get l).attempts = 0 ∧
      (t.sup.lamp.lamps.get l).recordValid = true ∧
      (spent → (t.sup.wear.lamps.get l).wear = 1800 ∧ (t.sup.wear.lamps.get l).strikes = 1))

/-! ### What is read from memory and judged -/

/-- Class, base and size of window `n` in a charter block (R208). -/
def blockClass (ws : List Word) (n : Nat) : Nat := (wordAt ws (0x10 + 8 * n)).toNat
def blockBase (ws : List Word) (n : Nat) : Nat :=
  (wordAt ws (0x11 + 8 * n)).toNat + (wordAt ws (0x12 + 8 * n)).toNat % 4 * 65536
def blockSize (ws : List Word) (n : Nat) : Nat := 2 ^ (wordAt ws (0x13 + 8 * n)).toNat

/-- Two runs of addresses share no word. -/
def runsApart (a n b k : Nat) : Prop := a + n ≤ b ∨ b + k ≤ a

/-- The requirement that each check of R196 makes of the words of a charter block (R20, R49, R144, R157, R208). -/
def CharterCheck.passes (rs : List ReadWord) (f : CharterCheck) : Prop :=
  let ws := rs.map (·.value)
  let w := fun o => (wordAt ws o).toNat
  let admits := fun level p => w (0x98 + level) / 2 ^ p % 2 = 1
  let g := geometryOf ws
  let ringBase := w 0x148 + w 0x149 % 4 * 65536
  match f with
  | .parity => ∀ r ∈ rs, r.bad = false
  | .signature => w 0 = 0x7A5C
  | .checksum => (ws.map BitVec.toNat).sum % 65536 = 0
  | .windows =>
    (∀ n, n < 16 →
      blockClass ws n ≤ 8 ∧
        (blockClass ws n ≠ 0 →
          w (0x13 + 8 * n) ≤ 16 ∧ blockBase ws n % blockSize ws n = 0 ∧ blockBase ws n + blockSize ws n ≤ 0x3C000)) ∧
      (∀ c least, (c, least) ∈ [(2, 1), (3, 8), (4, 1), (5, 8), (6, 2), (7, 32), (8, 8)] →
        ∃ n, n < 16 ∧ blockClass ws n = c ∧ least ≤ blockSize ws n ∧ ∀ m, m < 16 → blockClass ws m = c → m = n) ∧
      (∀ n m, n < 16 → m < 16 → n ≠ m → 2 ≤ blockClass ws n → blockClass ws m ≠ 0 →
        runsApart (blockBase ws n) (blockSize ws n) (blockBase ws m) (blockSize ws m))
  | .ports => 1 ≤ w 0x90 ∧ w 0x90 ≤ 255 ∧ 1 ≤ w 0x91 ∧ w 0x91 ≤ 15 ∧ w 0x92 ≤ 1 ∧ w 0x93 ≤ 255 ∧ w 0x94 ≤ 1
  | .permit =>
    (∀ p, p < 4 → (admits 1 p → admits 0 p) ∧ (admits 2 p → admits 1 p) ∧ (admits 3 p ↔ p = 3)) ∧
      admits 0 3 ∧ admits 1 3 ∧ admits 2 3 ∧ 5 ≤ w 0x9C ∧ w 0x9C ≤ 240
  | .lamp =>
    w 0xA0 ≤ 1 ∧ 5 ≤ w 0xA1 ∧ w 0xA1 ≤ 60 ∧ 30 ≤ w 0xA2 ∧ w 0xA2 ≤ 180 ∧ 60 ≤ w 0xA3 ∧ w 0xA3 ≤ 300 ∧ 1 ≤ w 0xA4 ∧ w 0xA4 ≤ 5 ∧
      100 ≤ w 0xA5 ∧ w 0xA5 < w 0xA6 ∧ w 0xA6 ≤ 20000
  | .sources => ∀ n, n < 16 → w (0xC0 + n) % 16 ≤ 9
  | .signals => 1 ≤ w 0xD0 ∧ w 0xD0 ≤ 16 ∧ 1 ≤ w 0xD1 ∧ w 0xD1 ≤ 60
  | .notices =>
    ∀ k, k < 7 →
      1 ≤ w (0xE0 + 2 * k) % 256 ∧ 1 ≤ w (0xE0 + 2 * k) / 256 % 32 ∧ w (0xE0 + 2 * k) / 256 % 32 ≤ 16 ∧ w (0xE1 + 2 * k) ≤ 255
  | .geometry =>
    (∀ i, i < 8 →
      w (0x100 + i) ≤ (if i % 2 = 0 then 1919 else 1199) ∧ w (0x108 + i) ≤ w (0x110 + i) ∧
        w (0x110 + i) ≤ (if i % 2 = 0 then 1919 else 1199)) ∧
      480 ≤ w 0x118 ∧ w 0x118 ≤ 1920 ∧ 300 ≤ w 0x119 ∧ w 0x119 ≤ 1200 ∧ w 0x11A ≤ 64 ∧
      (∀ o, o < 32 → -512 ≤ (wordAt ws (0x120 + o)).toInt ∧ (wordAt ws (0x120 + o)).toInt ≤ 511) ∧
      ∀ t ∈ Corners.all 0 :: g.presets, orderOk g (targetOf g t) = true
  | .schedule => 1 ≤ w 0x140 ∧ w 0x140 ≤ 60
  | .ring =>
    16 ≤ w 0x14A ∧ w 0x14A ≤ 256 ∧ (∃ k, w 0x14A = 2 ^ k) ∧ 1 ≤ w 0x14B ∧ w 0x14B ≤ 32 ∧ 1 ≤ w 0x14C ∧ w 0x14C ≤ 60 ∧
      ringBase + 4 * w 0x14A ≤ 0x3C000 ∧
      ∀ n, n < 16 → 2 ≤ blockClass ws n → runsApart (blockBase ws n) (blockSize ws n) ringBase (4 * w 0x14A)
  | .hold => w 0x150 ≤ 480

/-- The charter is the one whose block the words are, field by field (R208). -/
def Charter.isRead (ch : Charter) (ws : List Word) : Prop :=
  let w := fun o => (wordAt ws o).toNat
  let levels : List LockLevel := [.unlocked, .lectern, .exam, .service]
  ch.version = wordAt ws 1 ∧
    (∀ n, n < 16 →
      windowClassOf? (blockClass ws n) = some (windowRecord ch.windows n).cls ∧
        (blockClass ws n ≠ 0 →
          let v := windowRecord ch.windows n
          v.base = blockBase ws n ∧ v.size = blockSize ws n ∧
            (v.gated = true ↔ w (0x14 + 8 * n) % 2 = 1) ∧ (v.lockHold = true ↔ w (0x14 + 8 * n) / 2 % 2 = 1) ∧
            (v.bursts = true ↔ w (0x14 + 8 * n) / 4 % 2 = 1) ∧ (v.litOnly = true ↔ w (0x14 + 8 * n) / 8 % 2 = 1) ∧
            (v.exhaustWait = true ↔ w (0x14 + 8 * n) / 16 % 2 = 1))) ∧
    (ch.port.beatTimeout = w 0x90 ∧ ch.port.faultLimit = w 0x91 ∧ (ch.port.isolation = true ↔ w 0x92 = 1) ∧
      ch.port.retryLimit = w 0x93 ∧ (ch.port.fixedArbiter = true ↔ w 0x94 = 1)) ∧
    (∀ level ∈ levels, ∀ p : Port, (ch.permit.at level).get p = true ↔ w (0x98 + level.code) / 2 ^ p.code % 2 = 1) ∧
    ch.takeoverMinutes = w 0x9C ∧
    ((ch.lamp.dual = true ↔ w 0xA0 = 0) ∧ ch.lamp.strike = w 0xA1 ∧ ch.lamp.warmUp = w 0xA2 ∧ ch.lamp.cooldown = w 0xA3 ∧
      ch.lamp.attempts = w 0xA4 ∧ ch.lamp.warnHours = w 0xA5 ∧ ch.lamp.limitHours = w 0xA6) ∧
    (∀ k, k < 8 →
      (ch.priorityEntry k).number = w (0xB0 + k) % 8 ∧ ((ch.priorityEntry k).urgentMode = true ↔ w (0xB0 + k) / 256 % 2 = 1) ∧
        ((ch.priorityEntry k).notices = true ↔ w (0xB0 + k) / 4096 % 2 = 1)) ∧
    (∀ n, n < 16 →
      (ch.inputEntry n).select.code = w (0xC0 + n) % 16 ∧ ((ch.inputEntry n).needsSignal = true ↔ w (0xC0 + n) / 256 % 2 = 1) ∧
        ((ch.inputEntry n).valid = true ↔ w (0xC0 + n) / 32768 = 1)) ∧
    ch.settleHalves = w 0xD0 ∧ ch.settleCount = w 0xD1 ∧
    (∀ k : NoticeKind,
      let o := 0xE0 + 2 * (k.code - 1)
      (ch.noticeEntry k).overlay = w o % 256 ∧ (ch.noticeEntry k).opacity = w o / 256 % 32 ∧ (ch.noticeEntry k).duration = w (o + 1)) ∧
    (∀ i, i < 8 →
      ch.geometry.baseline.at i = w (0x100 + i) ∧ ch.geometry.minima.at i = w (0x108 + i) ∧ ch.geometry.maxima.at i = w (0x110 + i) ∧
        ∀ p, p < 4 → (ch.geometry.presets.getD p (.all 0)).at i = (wordAt ws (0x120 + 8 * p + i)).toInt) ∧
    (ch.geometry.minWidth = w 0x118 ∧ ch.geometry.minHeight = w 0x119 ∧ ch.geometry.slewStep = w 0x11A) ∧
    ch.graceMinutes = w 0x140 ∧
    (ch.ring.base = w 0x148 + w 0x149 % 4 * 65536 ∧ ch.ring.count = w 0x14A ∧ ch.ring.threshold = w 0x14B ∧ ch.ring.age = w 0x14C) ∧
    ch.holdMinutes = w 0x150

/-- The record tests of R110 on the eight words of a lamp record (R206), parity apart. -/
def lampRecordPasses (l : Lamp) (ws : List Word) : Prop :=
  let w := fun o => (wordAt ws o).toNat
  w 0 / 16 = (if l = .a then 0x7A1 else 0x7A2) ∧ w 0 % 4 ≤ 2 ∧ w 1 / 256 ≤ w 7 ∧ 1800 * w 7 ≤ w 3 + w 4 * 65536

/-- The counters are those of a lamp record, field by field; the record that is kept has its reserved bits 0 (R206, R116). -/
def WearCell.isRead (c : WearCell) (l : Lamp) (ws : List Word) : Prop :=
  let w := fun o => (wordAt ws o).toNat
  c.stage.code = w 0 % 4 ∧ c.strikeFailures = w 1 / 256 ∧ c.dropouts = w 1 % 256 ∧ c.tag = wordAt ws 2 ∧
    c.wear = w 3 + w 4 * 65536 ∧ c.litSeconds = w 5 + w 6 * 65536 ∧ c.strikes = w 7 ∧ c.flushCount = 0 ∧ c.loaded = true ∧
    c.record = lampRecordWords l c

/-- The range checks of R175 on the eight words of an entry (R205). -/
def entryInRange (ch : Charter) (ws : List Word) : Prop :=
  let w := fun o => (wordAt ws o).toNat
  w 0 ≤ 10079 ∧ w 0 < w 1 ∧ w 1 ≤ 10080 ∧ w 2 % 4 ≤ 2 ∧
    (w 3 % 32 = 31 ∨ (w 3 % 32 < 16 ∧ (ch.inputEntry (w 3 % 32)).valid = true)) ∧
    (w 4 % 4 = 0 ∨ w 4 / 256 % 32 ≤ 30) ∧ w 2 / 256 % 4 ≤ 1 ∧ w 2 / 4096 % 8 ≤ 4 ∧ w 5 ≤ 15

/-- The entry is the one of these words, field by field (R205). -/
def SlotEntry.isRead (e : SlotEntry) (ws : List Word) : Prop :=
  let w := fun o => (wordAt ws o).toNat
  e.startMinute = w 0 ∧ e.endMinute = w 1 ∧ e.level.code = w 2 % 4 ∧ (e.grace = true ↔ w 2 / 256 % 4 = 1) ∧
    e.preset = w 2 / 4096 % 8 ∧
    (e.claim.source = if w 3 % 32 = 31 then none else some (w 3 % 32)) ∧ e.claim.cls = w 3 / 256 % 8 ∧
    (e.claim.urgent = true ↔ 32768 ≤ w 3) ∧ (e.light = if w 4 % 4 = 0 then none else some (.ofCode (w 4 % 4))) ∧
    e.lead = w 4 / 256 % 32 ∧ e.warning = w 5

/-- Entries judged good one after the other, each after the one before it. -/
def entriesGood (ch : Charter) (rs : List ReadWord) (es : List SlotEntry) : Prop :=
  ∀ j e, es[j]? = some e → judgeEntry ch (if j = 0 then none else es[j - 1]?) ((rs.drop (8 * j)).take 8) = .ok e

/-! ### The arbiter -/

/-- A member's place in the first ring's order (R32). -/
def FirstRing.place : FirstRing → Nat
  | .internal => 0
  | .lectern => 1
  | .panel => 2
  | .group => 3

/-- A member's place in the second ring's order (R32). -/
def SecondRing.place : SecondRing → Nat
  | .campus => 0
  | .service => 1

def SecondRing.port : SecondRing → Port
  | .campus => .campus
  | .service => .service

/-- The arbiter takes a member of the first ring: it is ready, and no ready member comes before it in ring order from the pointer
(R32). -/
def Sup.takesFirst (s : Sup) (m : FirstRing) : Prop :=
  s.firstReady m = true ∧
    ∀ n, s.firstReady n = true → (m.place + 4 - s.mp.first.place) % 4 ≤ (n.place + 4 - s.mp.first.place) % 4

/-- The arbiter takes a member of the second ring, in the same way (R32). -/
def Sup.takesSecond (s : Sup) (m : SecondRing) : Prop :=
  s.secondReady m = true ∧
    ∀ n, s.secondReady n = true → (m.place + 2 - s.mp.second.place) % 2 ≤ (n.place + 2 - s.mp.second.place) % 2

/-- The memory port once a member of the first ring has been taken: in ROTATING mode the pointer is at the member following it, in FIXED
mode where it was (R32, R33). -/
def Sup.pastFirst (s : Sup) (m : FirstRing) : MemPort :=
  { s.mp with first := if s.chart.port.fixedArbiter then s.mp.first else m.following }

/-! ### The timetable -/

/-- The warning minute of an entry is at or before a minute (R177). -/
def SlotEntry.warnsBy (e : SlotEntry) (m : Nat) : Prop := e.warning ≠ 0 ∧ max (e.endMinute - e.warning) e.startMinute ≤ m

/-- A minute of week at which no loaded entry is current lies in a gap (R177). -/
def Sup.gapAt (s : Sup) (m : Nat) : Prop := ∀ d ∈ s.sched.loaded, ¬(d.startMinute ≤ m ∧ m < d.endMinute)

/-- The prewarm minute of an entry (R177): the first minute that lies in a gap, going forward from the start minute less the lead up to
the start minute. -/
def Sup.prewarmsAt (s : Sup) (e : SlotEntry) (m : Nat) : Prop :=
  ∃ k, k < e.lead ∧ m = (e.startMinute + 10080 - e.lead + k) % 10080 ∧ s.gapAt m ∧
    ∀ j, j < k → ¬s.gapAt ((e.startMinute + 10080 - e.lead + j) % 10080)

/-- The next entry to start after a minute: every other loaded entry starts later. -/
def Sup.nextToStart (s : Sup) (e : SlotEntry) (m : Nat) : Prop :=
  e ∈ s.sched.loaded ∧
    ∀ d ∈ s.sched.loaded, d ≠ e → (e.startMinute + 10080 - m) % 10080 < (d.startMinute + 10080 - m) % 10080

/-- The demand after a SET_IF_OFF request of an entry at an uptime: the entry's level where it was OFF, as it was where it was ON or the
entry asks for none (R78). -/
def Demand.askedBy (d : Demand) (e : SlotEntry) (now : Uptime) : Demand :=
  match e.light with
  | some v => if d.level = .off then { level := v, setTime := now } else d
  | none => d

/-! ### Requests -/

/-- The port's next request is collected: its controller is idle (R2). -/
def Sup.listens (s : Sup) (p : Port) : Prop := (s.port p).collection = .idle

/-- Admission is OPEN and the port is NORMAL: a complete request is classified (R6, R7). -/
def Sup.admits (s : Sup) (p : Port) : Prop := s.admission = .admitting ∧ (s.port p).quarantined = false

/-- The address of an offset of the window of a record class in force. -/
def Sup.place (s : Sup) (c : WindowClass) (offset : Nat) : Nat := windowBase s.chart.windows c + offset

/-- The whole write a command is: its port, its start address in the map in force, its beats. -/
def Sup.writeOf (s : Sup) : Instr → Option (Port × Nat × List Word)
  | .forwardedWrite p start beats => some (p, start.toNat, beats)
  | .mergedWrite p start beats => some (p, start.toNat, beats)
  | .ringTail p w => some (p, s.place .status 16, [w])
  | .lightWrite p w => some (p, s.place .light 0, [w])
  | .claimWrite p offset w => some (p, s.place .claim offset.val, [w])
  | .muteWrite p w => some (p, s.place .mute 0, [w])
  | .trimWrite p offset beats => some (p, s.place .geometry offset.val, beats)
  | .clockSet p dayHour minuteSecond => some (p, s.place .clock 0, [dayHour, minuteSecond])
  | .scheduleEnable p count => some (p, scheduleBase, [headerWord count.toNat true])
  | .scheduleDisable p count => some (p, scheduleBase, [headerWord count.toNat false])
  | .scheduleHeaderWrite p w => some (p, scheduleBase, [w])
  | .portRelease p w => some (p, s.place .service 0, [w])
  | .takeoverStart p => some (p, s.place .service 1, [1])
  | .takeoverEnd p => some (p, s.place .service 1, [2])
  | .lampClear p w => some (p, s.place .service 4, [w])
  | .lampReplace p lamp tag => some (p, s.place .service 2, [lamp, tag])
  | .charterReload p w => some (p, s.place .service 5, [w])
  | _ => none

/-- A write is taken, admitted and classified: the controller listens, the request is admitted, and the classification has the
verdict (R24, R25). -/
def Sup.meets (s : Sup) (p : Port) (start : Nat) (beats : List Word) (v : Verdict) : Prop :=
  s.listens p ∧ s.admits p ∧ s.classify p start beats = v

/-- A write is taken and applied at step 8 with a course. -/
def Sup.applies (s : Sup) (p : Port) (start : Nat) (beats : List Word) (c : Course) : Prop :=
  s.meets p start beats (.applied c)

/-- No held write waits for a condition, so an announcement of it releases nothing (R63, R64). -/
def Sup.noneWaits (s : Sup) (c : Condition) : Prop := ∀ e ∈ s.hold.entries, e.condition ≠ c

/-- An address below the retained region and apart from every status page word. -/
def Sup.apart (s : Sup) (a : Nat) : Prop := a < Config.retainedBase ∧ ∀ o, o < 32 → a ≠ s.place .status o

/-- A claim that only a missing signal keeps from winning: it passes tests 1 to 3 of R126, fails test 4, and outranks every claim that
counts (R129). -/
def Sup.lacksSignal (s : Sup) (c : Claimant) : Prop :=
  let w := (s.source.claims.get c).word
  (∃ n i, w.source = some n ∧ (s.chart.inputEntry n).valid = true ∧ 0 < effective s.chart w ∧
      (c = .schedule ∨ ∃ p : Port, p.claimant = c ∧ (s.chart.permit.at s.lock.level).get p = true) ∧
      (s.chart.inputEntry n).needsSignal = true ∧ (s.chart.inputEntry n).select = .input i ∧ (s.signal i).present = false) ∧
    ∀ d, s.counts d = true → s.outranks c d = true

/-- What a resolution leaves: the winner counts and outranks every other claim that counts, or none counts; the target is the
winner's (R126, R127); and the NO_SIGNAL condition holds where some claim lacks its signal alone (R129). -/
def Sup.resolved (s : Sup) : Prop :=
  (∀ c, s.source.winner = some c → s.counts c = true ∧ ∀ d, d ≠ c → s.counts d = true → s.outranks c d = true) ∧
    (s.source.winner = none → ∀ d, s.counts d = false) ∧ s.source.target = s.targetFor s.source.winner ∧
    (s.source.noSignal = true ↔ ∃ c, s.lacksSignal c)

/-- A control write stands in the control queue, or memory is writing it (R36). -/
def Sup.queued (s : Sup) (a : Nat) (v : Word) : Prop :=
  (a, v) ∈ s.mp.control ∨ s.mp.access = some (.control a v)

/-- What a change of the lock level does beside the release of held writes: the LOCK_CHANGED report, the new level as its subject and
the old one as its detail; the LOCK word; the resolution at the new level; the cause of the level left ended and that of the new
one raised (R47, R48). -/
def Sup.levelFollows (s t : Sup) : Prop :=
  t.lock.level ≠ s.lock.level →
    s.reportsAlso t (t.reportOf .lockChanged t.lock.level.code (word s.lock.level.code)) ∧
      (∀ ch, t.charter = some ch → windowTableOk ch.windows = true → t.queued (t.place .status 17) (t.statusWord 17)) ∧
      t.resolved ∧ (s.lock.level = .exam → ¬t.raised .examLock) ∧ (s.lock.level = .service → ¬t.raised .serviceTakeover) ∧
      (t.lock.level = .exam → t.raised .examLock) ∧ (t.lock.level = .service → t.raised .serviceTakeover)

end Sys2Proof.Machine
end

