-- ==== Sys2Proof/Certificates/Slice0/Obligations.lean ====
section
/-! DEFINITION. What is claimed of the 7A: the statements for the provers, grouped as the spec's chapters are. A statement
about a command concludes that the command answers a next state, and says what that state holds. -/

open Sys2Proof Sys2Proof.Machine

/-! ### The machine -/

/-- A step with a command at the front of the queue is that command on the rest of the queue. The model's choice: log 38. -/
def Obligations.StepRunsTheFrontCommand : Prop :=
  ∀ (c : Instr) (rest : List Instr) (s : State), step { s with pending := c :: rest } = exec c { s with pending := rest }

/-- Every command that the bus can express answers a next state, with the queue as it was and, unless it is a reset or a
completion of memory, with memory as it was; a command whose length the bus cannot express is refused.
The model's choice: log 36, 43. -/
def Obligations.CommandsCompleteAndKeepMemory : Prop :=
  ∀ (c : Instr) (s : State),
    (c.wellFormed = false → exec c s = .refused .inexpressible) ∧
    (c.wellFormed = true →
      ∃ t, exec c s = .next t ∧ t.pending = s.pending ∧
        (c ≠ .powerOnReset → c ≠ .lineReset → (∀ failing, c ≠ .memoryAccessDone failing) → t.mem = s.mem))

/-! ### Resets and start-up -/

/-- After either reset every port controller is NORMAL and idle with its counts 0, admission is STALLED, the queues of the internal
requester are empty but for the charter read, and an abandoned write has left some first part of its words. No charter is in
force and no reload is under way. The blocks stand at their reset values: locks, hold table, demand, lamps and their timers,
wear unit, claims, debounced signals, which are taken from the lines as they stand, resolver and its NO_SIGNAL condition,
sequencer with BLANK and CLEAR, trim, schedule, reports and notices; and the room clock, which a line reset keeps but for the
uptime. The model's choice: log 9, 12, 13, 24, 35. -/
def Obligations.ResetsSetTheBlocks : Prop :=
  (∀ (c : Instr) (s : State), (c = .powerOnReset ∨ c = .lineReset) →
    ∃ t, exec c s = .next t ∧ t.pending = s.pending ∧
      (∀ p, (t.sup.port p).quarantined = false ∧ (t.sup.port p).faults = 0 ∧ (t.sup.port p).waits = 0 ∧
        (t.sup.port p).collection = .idle ∧ (t.sup.port p).timer = none) ∧
      t.sup.admission = .stalled ∧ t.sup.mp.access = none ∧ t.sup.mp.control = [] ∧ t.sup.mp.releases = [] ∧
      t.sup.mp.reports = [] ∧ t.sup.mp.first = .internal ∧ t.sup.mp.second = .campus ∧
      (∃ r, t.sup.mp.reads = [r] ∧ r.reader = .charterStart ∧ r.start = 0x3F000 ∧ r.length = 1024 ∧ r.words = []) ∧
      (match s.sup.mp.access.bind Access.writes with
        | some (start, vs) => ∃ n, t.mem = s.mem.writeRun start (vs.take n)
        | none => t.mem = s.mem)) ∧
  (∀ (c : Instr) (s : State), (c = .powerOnReset ∨ c = .lineReset) →
    ∃ t, exec c s = .next t ∧
      t.sup.charter = none ∧ t.sup.reloading = false ∧
      (t.sup.lock.schedule = .unlocked ∧ t.sup.lock.takeover = none ∧ t.sup.lock.key = s.sup.lines.key ∧
        t.sup.lock.keyInterval = none ∧ t.sup.lock.level = if s.sup.lines.key then .lectern else .unlocked) ∧
      (t.sup.hold.entries = [] ∧ t.sup.hold.counter = 0) ∧
      (t.sup.lamp.demand = { level := .off, setTime := 0 } ∧ t.sup.lamp.duty = none ∧ t.sup.lamp.noLamp = false) ∧
      (∀ l, (t.sup.lamp.lamps.get l).state = .dark ∧ (t.sup.lamp.lamps.get l).command = .off ∧
        (t.sup.lamp.lamps.get l).attempts = 0 ∧ (t.sup.lamp.lamps.get l).marked = false ∧
        (t.sup.lamp.lamps.get l).timer = none) ∧
      (∀ l, let c := t.sup.wear.lamps.get l
        c.wear = 0 ∧ c.litSeconds = 0 ∧ c.strikes = 0 ∧ c.strikeFailures = 0 ∧ c.dropouts = 0 ∧ c.tag = 0 ∧
          c.stage = .fresh ∧ c.flushCount = 0 ∧ c.loaded = false) ∧
      (∀ l, t.sup.wear.hot.get l = false) ∧ t.sup.wear.startCount = 0 ∧
      (∀ k, (t.sup.source.claims.get k).word.source = none ∧ (t.sup.source.claims.get k).time = 0) ∧
      t.sup.source.requestedMute = .clear ∧
      t.sup.source.winner = none ∧ t.sup.source.target = .blank ∧ t.sup.source.noSignal = false ∧
      (∀ i, t.sup.signal i =
        { line := (s.sup.signal i).line, present := (s.sup.signal i).line, interval := none }) ∧
      (t.sup.seq.state = .idle ∧ t.sup.seq.counter = 0 ∧ t.sup.seq.liveSelect = .blank ∧ t.sup.seq.liveMute = .clear) ∧
      t.sup.geo.trim = .all 0 ∧
      (t.sup.notice.stack = [] ∧ t.sup.notice.pending = [] ∧ t.sup.notice.winningClass = none ∧ t.sup.notice.overlay = 0) ∧
      (t.sup.sched.state = .disabled ∧ t.sup.sched.current = none ∧ t.sup.sched.grace = none ∧ t.sup.sched.loaded = [] ∧
        t.sup.sched.warned = false ∧ t.sup.sched.load = none) ∧
      (t.sup.ring.head = 0 ∧ t.sup.ring.tail = 0 ∧ t.sup.ring.overflow = false ∧ t.sup.ring.unread = [] ∧
        t.sup.ring.attention = ⟨false, false, false, false⟩) ∧
      t.sup.lines = s.sup.lines ∧ t.sup.startUp.step = .charterLoad ∧ t.sup.room.uptime = 0 ∧
      (c = .powerOnReset → t.sup.startUp.cause = .power ∧ t.sup.room.isSet = false ∧ t.sup.room.timeOfWeek = 0) ∧
      (c = .lineReset →
        t.sup.startUp.cause = .line ∧ t.sup.room.isSet = s.sup.room.isSet ∧
          t.sup.room.timeOfWeek = s.sup.room.timeOfWeek))

/-- CHARTER_LOAD at its step: the charter in memory is put in force when it passes every check, with the report CHARTER_LOADED,
else the fallback charter with the cause SETUP and the report FALLBACK of the check that failed; the retained records are asked
for. A block is refused by the first check whose requirement its words miss, and where they meet all fourteen the charter is
the one the words spell, field by field. The model's choice: log 8, 29, 59. -/
def Obligations.CharterLoadPutsACharterInForce : Prop :=
  (∀ (rs : List ReadWord) (f : CharterCheck), judgeCharter rs = .error f ↔
    ¬f.passes rs ∧ ∀ g : CharterCheck, g.number < f.number → g.passes rs) ∧
  (∀ (rs : List ReadWord) (ch : Charter), rs.length = 1024 → judgeCharter rs = .ok ch →
    (∀ f : CharterCheck, f.passes rs) ∧ ch.isRead (rs.map (·.value))) ∧
  ∀ (s : State), s.sup.startUp.step = .charterLoad →
    ∃ t, exec .charterLoad s = .next t ∧ s.keepsMemory t ∧
      (let rs := (s.sup.readsOf .charterStart).flatMap fun r => r.finish s.mem;
        (∀ ch, judgeCharter rs = .ok ch →
          t.sup.charter = some ch ∧ t.sup.isFallback = false ∧
            s.sup.reportsOnly t.sup
              [s.sup.reportOf .charterLoaded (ch.version.toNat / 256) (word (ch.version.toNat % 256 * 256))]) ∧
        (∀ f, judgeCharter rs = .error f →
          t.sup.charter = some fallbackCharter ∧ t.sup.isFallback = true ∧ t.sup.ring.attention.setup = true ∧
            s.sup.reportsOnly t.sup [s.sup.reportOf .fallback 0 (word f.number)]) ∧
        ((∃ r ∈ rs, r.bad = true) → t.sup.isFallback = true)) ∧
      t.sup.startUp = { s.sup.startUp with step := .records } ∧
      (∃ r ∈ t.sup.mp.reads, r.reader = .records ∧ r.start = 0x3FF00 ∧ r.length = 20) ∧
      t.sup.lines = s.sup.lines ∧ t.sup.admission = s.sup.admission ∧ t.sup.lock = s.sup.lock ∧ t.sup.hold = s.sup.hold ∧
      s.sup.keepsLamps t.sup ∧ s.sup.keepsPicture t.sup ∧ s.sup.keepsRoom t.sup ∧ s.sup.keepsRing t.sup ∧
      s.sup.keepsPorts t.sup ∧ t.sup.geo = s.sup.geo

/-- RETAINED_RECORDS_READ at its step, the demand being OFF as it is after a reset: each lamp is adopted by its record, its LAMPOK
line and the shutdown record, with the report RECORD_BAD, LIT or HOT_START, and LAMP_FAILED raised where it is FAILED. A lamp
record is valid where its words read well and pass the record tests, and its counters are then those of its words; the shutdown
record is valid where its words read well and its mark and cause are in range, and gives the hot set, the start count and the
last reset cause. An invalid shutdown record gives a start count of 0, the cause POWER, the attention cause LAMP and a
RECORD_BAD of its own. The model's choice: log 6, 7, 8, 25. -/
def Obligations.AdoptionByRecordAndLine : Prop :=
  (∀ (l : Lamp) (rs : List ReadWord),
    let ws := rs.map (·.value)
    let read := ∀ r ∈ rs, r.bad = false;
    (judgeLampRecord l rs = .error 1 ↔ ¬read) ∧ (judgeLampRecord l rs = .error 2 ↔ read ∧ ¬lampRecordPasses l ws) ∧
      (∀ c, judgeLampRecord l rs = .ok c ↔ read ∧ lampRecordPasses l ws ∧ c.isRead l ws)) ∧
  (∀ (rs : List ReadWord) (hot : PerLamp Bool) (count : Word) (cause : ResetCause),
    let ws := rs.map (·.value)
    judgeShutdown rs = .ok (hot, count, cause) ↔
      (∀ r ∈ rs, r.bad = false) ∧ wordAt ws 0 = 0x5D7A ∧ (hot.a = true ↔ (wordAt ws 1).toNat % 2 = 1) ∧
        (hot.b = true ↔ (wordAt ws 1).toNat / 2 % 2 = 1) ∧ count = wordAt ws 2 ∧ (wordAt ws 3).toNat = cause.code) ∧
  ∀ (s : State) (l : Lamp), s.sup.startUp.step = .records → s.sup.lamp.demand.level = .off →
    ∃ t, exec .retainedRecordsRead s = .next t ∧ s.keepsMemory t ∧
      (let rs := (s.sup.readsOf .records).flatMap fun r => r.finish s.mem
        let part := if l = .a then rs.take 8 else (rs.drop 8).take 8
        let hot := shownHot ((rs.drop 16).take 4) l
        let level := adoptedLevel s.sup.startUp.cause (rs.getD (20 + l.code) { value := 0, bad := true })
        let cooldown := some (s.sup.after (periodsOfSeconds s.sup.chart.lamp.cooldown))
        (∀ d, judgeLampRecord l part = .error d →
          t.sup.lamp.lamps.get l =
              (if s.sup.lines.lampok.get l || hot then
                { LampCell.reset with state := .cooling, marked := true, recordValid := false, timer := cooldown }
              else { LampCell.reset with state := .failed, recordValid := false }) ∧
            t.sup.ring.attention.lamp = true ∧ s.sup.reportsAlso t.sup (s.sup.reportOf .recordBad l.code (word d)) ∧
            ((s.sup.lines.lampok.get l || hot) = false → t.sup.raised .lampFailed)) ∧
        (∀ w, judgeLampRecord l part = .ok w →
          t.sup.lamp.lamps.get l =
              (if s.sup.lines.lampok.get l then { LampCell.reset with state := .lit, command := level }
              else if hot then { LampCell.reset with state := .cooling, timer := cooldown }
              else LampCell.reset) ∧
            (t.sup.wear.lamps.get l).wear = w.wear ∧ (t.sup.wear.lamps.get l).litSeconds = w.litSeconds ∧
            (t.sup.wear.lamps.get l).strikes = w.strikes ∧ (t.sup.wear.lamps.get l).tag = w.tag ∧
            (t.sup.wear.lamps.get l).loaded = true ∧
            (s.sup.lines.lampok.get l = true → s.sup.reportsAlso t.sup (s.sup.reportOf .lit l.code (word level.code))) ∧
            (s.sup.lines.lampok.get l = false → hot = true →
              s.sup.reportsAlso t.sup (s.sup.reportOf .hotStart l.code (word (min s.sup.chart.lamp.cooldown 65535))) ∧
                t.sup.ring.attention.lamp = true))) ∧
      (let rs := (((s.sup.readsOf .records).flatMap fun r => r.finish s.mem).drop 16).take 4;
        (∀ hot count cause, judgeShutdown rs = .ok (hot, count, cause) →
          t.sup.wear.startCount = count ∧ t.sup.wear.lastCause = cause) ∧
        (∀ d, judgeShutdown rs = .error d →
          t.sup.wear.startCount = 0 ∧ t.sup.wear.lastCause = .power ∧ t.sup.ring.attention.lamp = true ∧
            s.sup.reportsNext t.sup [s.sup.reportOf .recordBad 2 (word d)])) ∧
      t.sup.startUp = { s.sup.startUp with step := .rebuild } ∧ t.sup.lines = s.sup.lines ∧
      t.sup.charter = s.sup.charter ∧ t.sup.admission = s.sup.admission ∧ t.sup.lock = s.sup.lock ∧
      t.sup.hold = s.sup.hold ∧ s.sup.keepsPicture t.sup ∧ s.sup.keepsRoom t.sup ∧ s.sup.keepsRing t.sup ∧
      s.sup.keepsPorts t.sup ∧ t.sup.geo = s.sup.geo

/-- REBUILD after a power-on reset: demand OFF, a lit lamp taken to COOLING with a LAMP_OFF report and every other lamp left as it
is, trim 0 with the live corners at the target; the requested mute and, with every claim withdrawn, the sequencer stay as the
reset left them. The defaults are written: the mirrors of LIGHT, CLAIM, MUTE, GEOMETRY and CLOCK, and the status page words but
those that other steps write. The model's choice: log 6, 7, 8, 14, 17. -/
def Obligations.RebuildAfterPowerOn : Prop :=
  ∀ (s : State), s.sup.startUp.step = .rebuild → s.sup.startUp.cause = .power →
    ∃ t, exec .rebuild s = .next t ∧ s.keepsMemory t ∧
      t.sup.lamp.demand = { level := .off, setTime := 0 } ∧ t.sup.lamp.duty = none ∧
      (∀ l, (t.sup.lamp.lamps.get l).state =
        if (s.sup.lamp.lamps.get l).state = .lit then .cooling else (s.sup.lamp.lamps.get l).state) ∧
      (∀ l, t.sup.lamp.lamps.get l = s.sup.agreed .off l) ∧ t.sup.lamp.noLamp = false ∧
      (∀ l, (s.sup.lamp.lamps.get l).state = .lit →
        s.sup.reportsAlso t.sup (s.sup.reportOf .lampOff l.code (word LampState.lit.code))) ∧
      t.sup.source.requestedMute = s.sup.source.requestedMute ∧
      ((∀ k, (s.sup.source.claims.get k).word.source = none) →
        t.sup.source.winner = none ∧ t.sup.source.target = .blank ∧ t.sup.source.noSignal = false ∧
          (s.sup.seq.state = .idle → s.sup.seq.liveSelect = .blank → t.sup.seq = s.sup.seq)) ∧
      (s.mapLaw → s.sup.charter.isSome = true →
        t.sup.queued (s.sup.place .light 0) 0 ∧ t.sup.queued (s.sup.place .mute 0) 0 ∧
          (∀ o, o < 5 → t.sup.queued (s.sup.place .claim o) 31) ∧
          (∀ o, o < 8 → t.sup.queued (s.sup.place .geometry o) 0) ∧
          (∀ o, o < 2 → t.sup.queued (s.sup.place .clock o) 0) ∧
          (∀ o, o < 32 → o ∉ [0, 1, 2, 23, 24] → t.sup.queued (s.sup.place .status o) (t.sup.statusWord o))) ∧
      t.sup.geo.trim = .all 0 ∧ t.sup.geo.target = targetOf s.sup.geoParams (.all 0) ∧
      t.sup.geo.live = t.sup.geo.target ∧ t.sup.geo.slewing = false ∧ t.sup.resolved ∧
      t.sup.startUp = { s.sup.startUp with step := .header } ∧ t.sup.lines = s.sup.lines ∧
      t.sup.charter = s.sup.charter ∧ t.sup.admission = s.sup.admission ∧ t.sup.lock = s.sup.lock ∧
      t.sup.hold = s.sup.hold ∧ t.sup.source.claims = s.sup.source.claims ∧ s.sup.keepsRoom t.sup ∧
      s.sup.keepsRing t.sup ∧ s.sup.keepsPorts t.sup

/-- REBUILD after a line reset: the records are rebuilt from the mirrors read, and a mirror of bad parity or content gives the
default, which is written. The lamps are brought into agreement with the demand, a LAMP_OFF report for each that goes down, and
a strike decision is made. The sequencer is in MUTING where the target differs from LIVE_SELECT, in SETTLING where the picture
is muted and CLEAR is requested, else in IDLE. The model's choice: log 6, 7, 8, 14, 17, 26, 46, 49, 56, 60, 61. -/
def Obligations.RebuildAfterLineReset : Prop :=
  ∀ (s : State), s.sup.startUp.step = .rebuild → s.sup.startUp.cause = .line →
    ∃ t, exec .rebuild s = .next t ∧ s.keepsMemory t ∧
      (let r := mirrorsOf ((s.sup.readsOf .rebuild).flatMap fun q => q.finish s.mem)
        let bad : ReadWord := { value := 0, bad := true }
        t.sup.lamp.demand =
            { level := if r.light.bad then .off else .ofCode (bits r.light.value 1 0), setTime := s.sup.room.uptime } ∧
          (∀ p : Port, t.sup.source.claims.get p.claimant =
            { word := (s.sup.claimBack? (r.claims.getD p.code bad)).getD .withdraw, time := s.sup.room.uptime }) ∧
          t.sup.source.requestedMute = (if r.mute.bad then .clear else .ofBit (bit r.mute.value 0)) ∧
          t.sup.seq.liveSelect =
            (if r.liveSelect.bad then .blank else (Select.ofCode? (bits r.liveSelect.value 3 0)).getD .blank) ∧
          (r.liveMute.bad = true ∨ bit r.liveMute.value 0 = true → t.sup.seq.liveMute = .muted) ∧
          t.sup.geo.trim = (s.sup.trimBack? r.trim).getD (.all 0) ∧
          t.sup.geo.target = targetOf s.sup.geoParams t.sup.geo.trim ∧
          (∀ i, i < 8 → t.sup.geo.live.at i = s.sup.cornerBack t.sup.geo.target r.corners i) ∧
          t.sup.geo.slewing = (t.sup.geo.live != t.sup.geo.target)) ∧
      (t.sup.source.claims.get .schedule).word = .withdraw ∧ t.sup.resolved ∧
      (let r := mirrorsOf ((s.sup.readsOf .rebuild).flatMap fun q => q.finish s.mem)
        let muted := r.liveMute.bad = true ∨ bit r.liveMute.value 0 = true;
        (t.sup.source.target ≠ t.sup.seq.liveSelect → t.sup.seq.state = .muting ∧ t.sup.seq.liveMute = .muted) ∧
          (t.sup.source.target = t.sup.seq.liveSelect → muted → t.sup.source.requestedMute = .clear →
            t.sup.seq.state = .settling ∧ t.sup.seq.counter = s.sup.chart.settleCount ∧ t.sup.seq.liveMute = .muted) ∧
          (t.sup.source.target = t.sup.seq.liveSelect → ¬muted ∨ t.sup.source.requestedMute = .muted →
            t.sup.seq.state = .idle ∧ t.sup.seq.liveMute = t.sup.source.requestedMute)) ∧
      { s.sup with
        lamp :=
          { s.sup.lamp with
            demand := t.sup.lamp.demand
            lamps := ⟨s.sup.agreed t.sup.lamp.demand.level .a, s.sup.agreed t.sup.lamp.demand.level .b⟩ } }.decided t.sup ∧
      (∀ l, t.sup.lamp.demand.level = .off → (s.sup.lamp.lamps.get l).state = .lit →
        s.sup.reportsAlso t.sup (s.sup.reportOf .lampOff l.code (word LampState.lit.code))) ∧
      (s.mapLaw → s.sup.charter.isSome = true →
        let r := mirrorsOf ((s.sup.readsOf .rebuild).flatMap fun q => q.finish s.mem)
        let bad : ReadWord := { value := 0, bad := true };
        (r.light.bad = true → t.sup.queued (s.sup.place .light 0) 0) ∧
          (∀ p : Port, s.sup.claimBack? (r.claims.getD p.code bad) = none → t.sup.queued (s.sup.place .claim p.code) 31) ∧
          t.sup.queued (s.sup.place .claim 4) 31 ∧ (r.mute.bad = true → t.sup.queued (s.sup.place .mute 0) 0) ∧
          (s.sup.trimBack? r.trim = none → ∀ o, o < 8 → t.sup.queued (s.sup.place .geometry o) 0) ∧
          (r.liveSelect.bad = true ∨ Select.ofCode? (bits r.liveSelect.value 3 0) = none →
            t.sup.queued (s.sup.place .status 3) (t.sup.statusWord 3)) ∧
          (r.liveMute.bad = true → t.sup.queued (s.sup.place .status 4) (t.sup.statusWord 4)) ∧
          (∀ i, i < 8 →
            (r.corners.getD i bad).bad = true ∨ t.sup.geo.live.at i ≠ (bits (r.corners.getD i bad).value 10 0 : Int) →
            t.sup.queued (s.sup.place .status (6 + i)) (t.sup.statusWord (6 + i))) ∧
          (∀ o, o < 32 → o ∈ [5, 14, 15, 16, 17, 18, 19, 20, 21, 22] ∨ 25 ≤ o →
            t.sup.queued (s.sup.place .status o) (t.sup.statusWord o))) ∧
      (t.sup.seq.state = .idle → t.sup.seq.liveSelect = t.sup.source.target) ∧
      t.sup.startUp = { s.sup.startUp with step := .header } ∧ t.sup.lines = s.sup.lines ∧
      t.sup.charter = s.sup.charter ∧ t.sup.admission = s.sup.admission ∧ t.sup.lock = s.sup.lock ∧
      t.sup.hold = s.sup.hold ∧ s.sup.keepsRoom t.sup ∧ s.sup.keepsRing t.sup ∧ s.sup.keepsPorts t.sup

/-- SCHEDULE_HEADER_READ at its step, no write being held: a bad header is taken as count 0 with enable OFF, with LOAD_FAIL of the
header, PARITY or RANGE; an enable of OFF or of no entries ends start-up; an enable of entries asks for them. A change of the
lock level has its announcement. The model's choice: log 8. -/
def Obligations.HeaderReadDecidesTheLoad : Prop :=
  ∀ (s : State), s.sup.startUp.step = .header → s.sup.hold.entries = [] →
    ∃ t, exec .scheduleHeaderRead s = .next t ∧ s.keepsMemory t ∧
      (let r := ((s.sup.readsOf .header).flatMap fun q => q.finish s.mem).getD 0 { value := 0, bad := true };
        ((r.bad = true ∨ headerOfWord? r.value = none) →
          t.sup.sched.count = 0 ∧ t.sup.sched.enable = false ∧ t.sup.sched.state = s.sup.sched.state ∧
            t.sup.ring.attention.setup = true ∧ s.sup.starts t.sup ∧
            s.sup.reportsNext t.sup [s.sup.reportOf .loadFail 0x3F (if r.bad then 1 else 2)]) ∧
        (∀ n, r.bad = false → headerOfWord? r.value = some (n, false) →
          t.sup.sched.count = n ∧ t.sup.sched.enable = false ∧ t.sup.sched.state = s.sup.sched.state ∧
            s.sup.starts t.sup) ∧
        (r.bad = false → headerOfWord? r.value = some (0, true) →
          t.sup.sched.count = 0 ∧ t.sup.sched.enable = true ∧ t.sup.sched.state = .enabled ∧ t.sup.sched.loaded = [] ∧
            s.sup.starts t.sup) ∧
        (∀ n, r.bad = false → headerOfWord? r.value = some (n + 1, true) →
          t.sup.sched.count = n + 1 ∧ t.sup.sched.enable = true ∧ t.sup.sched.state = .loading ∧
            t.sup.startUp.step = .entries ∧ t.sup.admission = s.sup.admission ∧
            t.sup.sched.load = some s.sup.mp.nextRead ∧
            { number := s.sup.mp.nextRead, reader := .entries, start := 0x3E010, length := 8 * (n + 1), words := [] } ∈
              t.sup.mp.reads)) ∧
      t.sup.charter = s.sup.charter ∧ t.sup.lines = s.sup.lines ∧ t.sup.hold = s.sup.hold ∧
      s.sup.keepsRing t.sup ∧ s.sup.keepsPorts t.sup ∧ t.sup.geo = s.sup.geo ∧ t.sup.lamp = s.sup.lamp ∧
      s.sup.levelFollows t.sup

/-- SCHEDULE_LOAD_DONE: the result of a load that is still wanted is judged entry by entry, and the load succeeds or fails whole;
an abandoned load's result is disregarded. An entry is good where its words read well, every field is in range and it follows
the entry before it, and is then the one its words spell; the first bad one gives the failure its index, and LOAD_FAIL is
reported with it. After a success with the clock SET the slot of the time is current, with its claim, its warning state, its
preset, its light request and its SLOT_START report, or in a gap the next entry's prewarm is taken where its lead is reached.
At the start-up step the load ends start-up, and preset, light request and prewarm are left out. A change of the lock level has
its announcement. The model's choice: log 8. -/
def Obligations.LoadEndsWholeOrNotAtAll : Prop :=
  (∀ (ch : Charter) (before : Option SlotEntry) (rs : List ReadWord),
    let ws := rs.map (·.value)
    let read := ∀ r ∈ rs, r.bad = false
    let follows := ∀ d, before = some d → d.startMinute < (wordAt ws 0).toNat ∧ d.endMinute ≤ (wordAt ws 0).toNat;
    (judgeEntry ch before rs = .error .parity ↔ ¬read) ∧
      (judgeEntry ch before rs = .error .range ↔ read ∧ ¬entryInRange ch ws) ∧
      (judgeEntry ch before rs = .error .order ↔ read ∧ entryInRange ch ws ∧ ¬follows) ∧
      (∀ e, judgeEntry ch before rs = .ok e ↔ read ∧ entryInRange ch ws ∧ follows ∧ e.isRead ws)) ∧
  (∀ (ch : Charter) (n : Nat) (rs : List ReadWord),
    (∀ es, judgeEntries ch n 0 none rs = .ok es ↔ es.length = n ∧ entriesGood ch rs es) ∧
      (∀ i f, judgeEntries ch n 0 none rs = .error (i, f) ↔
        i < n ∧ ∃ es, es.length = i ∧ entriesGood ch rs es ∧ judgeEntry ch es.getLast? ((rs.drop (8 * i)).take 8) = .error f)) ∧
  ∀ (s : State) (r : InternalRead) (rest : List InternalRead), s.sup.readsOf .entries = r :: rest →
    s.sup.noneWaits .lock →
    ∃ t, exec .scheduleLoadDone s = .next t ∧ s.keepsMemory t ∧
      (s.sup.sched.load ≠ some r.number → t.sup.sched = s.sup.sched ∧ t.sup.startUp = s.sup.startUp ∧ t.sup.lock = s.sup.lock) ∧
      (∀ es, s.sup.sched.load = some r.number →
        judgeEntries s.sup.chart s.sup.sched.count 0 none (r.finish s.mem) = .ok es →
        t.sup.sched.loaded = es ∧ t.sup.sched.state = .enabled ∧ t.sup.sched.load = none ∧
          t.sup.sched.count = s.sup.sched.count ∧ t.sup.sched.enable = s.sup.sched.enable) ∧
      (∀ i f, s.sup.sched.load = some r.number →
        judgeEntries s.sup.chart s.sup.sched.count 0 none (r.finish s.mem) = .error (i, f) →
        t.sup.sched.loaded = s.sup.sched.loaded ∧ t.sup.sched.state = .disabled ∧ t.sup.sched.load = none ∧
          t.sup.sched.count = s.sup.sched.count ∧ t.sup.sched.enable = false ∧ t.sup.ring.attention.setup = true ∧
          t.sup.sched.current = s.sup.sched.current ∧ t.sup.sched.warned = s.sup.sched.warned ∧
          t.sup.lamp.demand = s.sup.lamp.demand ∧
          s.sup.reportsNext t.sup
            [s.sup.reportOf .loadFail i (match f with | .parity => 1 | .range => 2 | .order => 3)]) ∧
      (∀ es, s.sup.sched.load = some r.number →
        judgeEntries s.sup.chart s.sup.sched.count 0 none (r.finish s.mem) = .ok es → s.sup.sched.current = none →
        let minute := s.sup.room.timeOfWeek / 60
        let slot := es.findIdx? fun e => e.startMinute ≤ minute && minute < e.endMinute;
        (s.sup.room.isSet = false → t.sup.sched.current = none ∧ t.sup.lamp.demand = s.sup.lamp.demand) ∧
        (s.sup.room.isSet = true → t.sup.sched.current = slot ∧ t.sup.lock.schedule = t.sup.slotLevel) ∧
        (∀ i e, s.sup.room.isSet = true → slot = some i → es[i]? = some e →
          t.sup.source.claims.get .schedule = { word := e.claim, time := s.sup.room.uptime } ∧ t.sup.resolved ∧
            t.sup.sched.grace = none ∧ (t.sup.sched.warned = true ↔ e.warnsBy minute) ∧
            s.sup.reportsAlso t.sup (s.sup.reportOf .slotStart i (if s.sup.startUp.step = .entries then 3 else 2)) ∧
            (if s.sup.startUp.step = .entries then
              t.sup.lamp.demand = s.sup.lamp.demand ∧ t.sup.geo.trim = s.sup.geo.trim
            else
              t.sup.lamp.demand = s.sup.lamp.demand.askedBy e s.sup.room.uptime ∧
                (e.preset = 0 → t.sup.geo.trim = s.sup.geo.trim) ∧
                (e.preset ≠ 0 → t.sup.geo.trim = s.sup.geoParams.presets.getD (e.preset - 1) (.all 0)))) ∧
        (s.sup.room.isSet = true → slot = none → s.sup.startUp.step = .entries → t.sup.lamp.demand = s.sup.lamp.demand) ∧
        (∀ e, s.sup.room.isSet = true → slot = none → s.sup.startUp.step ≠ .entries → t.sup.nextToStart e minute →
          let due := ∃ m, t.sup.prewarmsAt e m ∧ (e.startMinute + 10080 - minute) % 10080 ≤ (e.startMinute + 10080 - m) % 10080;
          (due → t.sup.lamp.demand = s.sup.lamp.demand.askedBy e s.sup.room.uptime) ∧
            (¬due → t.sup.lamp.demand = s.sup.lamp.demand))) ∧
      (s.sup.sched.load = some r.number → s.sup.startUp.step = .entries → s.sup.starts t.sup) ∧
      t.sup.charter = s.sup.charter ∧ t.sup.lines = s.sup.lines ∧ s.sup.keepsRing t.sup ∧ s.sup.keepsPorts t.sup ∧
      t.sup.hold = s.sup.hold ∧ s.sup.levelFollows t.sup

/-! ### Ports and traffic -/

/-- While admission is STALLED a complete request is answered an uncounted WAIT; from a quarantined port a complete request is
DENIED QUARANTINED. Either way no report is made and nothing else changes: every whole write, every read, and a last beat.
The model's choice: log 1. -/
def Obligations.StalledAndQuarantinedRequests : Prop :=
  ∀ (c : Instr) (p : Port) (s : State), c.wellFormed = true →
    ((s.sup.listens p ∧ ((∃ a bs, s.sup.writeOf c = some (p, a, bs)) ∨ ∃ a n, c = .portRead p a n)) ∨
      (∃ w a n bs, c = .writeBeat p w ∧ (s.sup.port p).collection = .collecting a n bs ∧ n ≤ bs.length + 1)) →
    ∃ t, exec c s = .next t ∧ s.keepsMemory t ∧
      (s.sup.admission = .stalled →
        t.sup.answered p .wait ∧ (t.sup.port p).waits = (s.sup.port p).waits ∧
          (t.sup.port p).faults = (s.sup.port p).faults ∧
          (t.sup.port p).quarantined = (s.sup.port p).quarantined ∧ s.sup.keepsOthers t.sup p ∧
          s.sup.keepsBlocks t.sup ∧ s.sup.keepsClock t.sup ∧ t.sup.hold = s.sup.hold ∧
          t.sup.ring.attention = s.sup.ring.attention ∧ s.sup.makesNoReport t.sup) ∧
      (s.sup.admission = .admitting → (s.sup.port p).quarantined = true →
        t.sup.answered p (.denied .quarantined) ∧ (t.sup.port p).waits = 0 ∧
          (t.sup.port p).faults = (s.sup.port p).faults ∧ (t.sup.port p).quarantined = true ∧
          s.sup.keepsOthers t.sup p ∧ s.sup.keepsBlocks t.sup ∧ s.sup.keepsClock t.sup ∧ t.sup.hold = s.sup.hold ∧
          t.sup.ring.attention = s.sup.ring.attention ∧ s.sup.makesNoReport t.sup)

/-- A port that awaits its response discards every read, write header, beat and whole write; a port that collects a write discards a
header; an idle port discards a beat. WRITE_HEADER at an idle controller starts a collection and the beat timer; WRITE_BEAT
joins it and restarts the timer, and the last beat is the same as the whole write. The model's choice: log 1, 3, 6, 15, 33. -/
def Obligations.WritesAreCollectedBeatByBeat : Prop :=
  (∀ (c : Instr) (p : Port) (s : State), c.wellFormed = true →
    (((∃ r, (s.sup.port p).collection = .awaiting r) ∧
        ((∃ a bs, s.sup.writeOf c = some (p, a, bs)) ∨ (∃ a n, c = .portRead p a n ∨ c = .writeHeader p a n) ∨
          ∃ w, c = .writeBeat p w)) ∨
      ((∃ a n bs, (s.sup.port p).collection = .collecting a n bs) ∧
        ∃ a n, c = .portRead p a n ∨ c = .writeHeader p a n) ∨
      (s.sup.listens p ∧ ∃ w, c = .writeBeat p w)) →
    exec c s = .next { s with sup := s.sup.grant }) ∧
  (∀ (p : Port) (start : Addr) (n : Nat) (s : State), lengthExpressible n = true → s.sup.listens p →
    ∃ t, exec (.writeHeader p start n) s = .next t ∧ s.keepsMemory t ∧
      (t.sup.port p).collection = .collecting start.toNat n [] ∧ (t.sup.port p).response = none ∧
      (∀ ch, s.sup.charter = some ch →
        (t.sup.port p).timer = some (s.sup.after (periodsOfMicros ch.port.beatTimeout))) ∧
      (s.sup.charter = none → ∃ us, 1 ≤ us ∧ us ≤ 255 ∧ (t.sup.port p).timer = some (s.sup.after (periodsOfMicros us))) ∧
      (t.sup.port p).quarantined = (s.sup.port p).quarantined ∧ (t.sup.port p).faults = (s.sup.port p).faults ∧
      (t.sup.port p).waits = (s.sup.port p).waits ∧ s.sup.keepsOthers t.sup p ∧ s.sup.keepsBlocks t.sup ∧
      s.sup.keepsClock t.sup ∧ t.sup.hold = s.sup.hold) ∧
  (∀ (p : Port) (w : Word) (s : State) (start : Addr) (n : Nat) (bs : List Word),
    (s.sup.port p).collection = .collecting start.toNat n bs →
    (bs.length + 1 < n →
      ∃ t, exec (.writeBeat p w) s = .next t ∧ s.keepsMemory t ∧
        (t.sup.port p).collection = .collecting start.toNat n (bs ++ [w]) ∧
        (∀ ch, s.sup.charter = some ch →
          (t.sup.port p).timer = some (s.sup.after (periodsOfMicros ch.port.beatTimeout))) ∧
        (t.sup.port p).quarantined = (s.sup.port p).quarantined ∧ (t.sup.port p).faults = (s.sup.port p).faults ∧
        (t.sup.port p).waits = (s.sup.port p).waits ∧ s.sup.keepsOthers t.sup p ∧ s.sup.keepsBlocks t.sup ∧
        s.sup.keepsClock t.sup ∧ t.sup.hold = s.sup.hold) ∧
    (bs.length + 1 = n → lengthExpressible n = true →
      exec (.writeBeat p w) s = exec (.forwardedWrite p start (bs ++ [w])) s))

/-- BEAT_TIMEOUT of a write being collected: the three responses by admission state and port state; the fault count and the report
BEAT_TIMEOUT of a write that is DENIED TIMEOUT; and the quarantine entry at the fault limit with isolation enabled, with
QUARANTINED and a TORN report for each entry of the port, in that order. The model's choice: log 4, 16, 17. -/
def Obligations.BeatTimeoutAnswersAndCounts : Prop :=
  ∀ (p : Port) (s : State) (a n : Nat) (bs : List Word) (e : Nat),
    (s.sup.port p).collection = .collecting a n bs → (s.sup.port p).timer = some e →
    ∃ t, exec (.beatTimeout p) s = .next t ∧ s.keepsMemory t ∧ s.sup.keepsOthers t.sup p ∧ s.sup.keepsBase t.sup ∧
      t.sup.admission = s.sup.admission ∧ t.sup.time.crystal = max s.sup.time.crystal e ∧ s.sup.keepsLamps t.sup ∧
      s.sup.keepsRoom t.sup ∧ s.sup.keepsRing t.sup ∧ t.sup.lock = s.sup.lock ∧ t.sup.geo = s.sup.geo ∧
      (s.sup.admission = .stalled →
        t.sup.answered p .wait ∧ (t.sup.port p).faults = (s.sup.port p).faults ∧
          (t.sup.port p).waits = (s.sup.port p).waits ∧
          (t.sup.port p).quarantined = (s.sup.port p).quarantined ∧ t.sup.hold = s.sup.hold ∧
          s.sup.keepsPicture t.sup ∧ s.sup.makesNoReport t.sup) ∧
      (s.sup.admission = .admitting → (s.sup.port p).quarantined = true →
        t.sup.answered p (.denied .quarantined) ∧ (t.sup.port p).faults = (s.sup.port p).faults ∧
          (t.sup.port p).waits = 0 ∧ (t.sup.port p).quarantined = true ∧ t.sup.hold = s.sup.hold ∧
          s.sup.keepsPicture t.sup ∧ s.sup.makesNoReport t.sup) ∧
      (s.sup.admission = .admitting → (s.sup.port p).quarantined = false →
        t.sup.answered p (.denied .timeout) ∧ (t.sup.port p).faults = min ((s.sup.port p).faults + 1) 15 ∧
          (t.sup.port p).waits = 0 ∧
          (if s.sup.chart.port.isolation = true ∧ s.sup.chart.port.faultLimit ≤ min ((s.sup.port p).faults + 1) 15 then
            (t.sup.port p).quarantined = true ∧ t.sup.hold.entries = s.sup.hold.entries.filter (fun h => h.port != p) ∧
              t.sup.source.claims =
                s.sup.source.claims.set p.claimant { word := .withdraw, time := s.sup.room.uptime } ∧
              t.sup.resolved ∧ t.sup.ring.attention.port = true ∧
              ∃ d d', s.sup.reportsNext t.sup
                ([s.sup.reportOf .beatTimeout p.code d, s.sup.reportOf .quarantined p.code d'] ++
                  s.sup.tornReports fun h => h.port == p)
          else
            (t.sup.port p).quarantined = false ∧ t.sup.hold = s.sup.hold ∧ s.sup.keepsPicture t.sup ∧
              t.sup.notice = s.sup.notice ∧ ∃ d, s.sup.reportsOnly t.sup [s.sup.reportOf .beatTimeout p.code d]))

/-- PORT_READ of an admitted port: refused SPAN where the range crosses a window boundary or the end of memory, refused BURST where
the window allows no such length, else forwarded, whatever the lock level; a PANEL read that covers ATTENTION carries its
place. A word belongs to its built-in window at 3C000H and above; below, to the lowest-numbered window in use that contains it,
else to the default region. A read has 1 to 8 words, or 1 in a PLAIN window without bursts. The model's choice: log 33, 34. -/
def Obligations.ReadsAreRefusedOrForwarded : Prop :=
  (∀ (p : Port) (start : Addr) (n : Nat) (s : State), lengthExpressible n = true → s.sup.listens p → s.sup.admits p →
    ∃ t, exec (.portRead p start n) s = .next t ∧ s.keepsMemory t ∧ s.sup.keepsOthers t.sup p ∧ s.sup.keepsBlocks t.sup ∧
      s.sup.keepsClock t.sup ∧ t.sup.hold = s.sup.hold ∧ s.sup.makesNoReport t.sup ∧
      (t.sup.port p).faults = (s.sup.port p).faults ∧ (t.sup.port p).quarantined = false ∧
      (let map := s.sup.chart.windows
        let apart := Config.memoryWords < start.toNat + n ∨
          ∃ i, i < n ∧ windowAt map (start.toNat + i) ≠ windowAt map start.toNat
        (apart → t.sup.answered p (.denied .span) ∧ (t.sup.port p).waits = 0) ∧
        (¬apart → readLengthOk map (windowAt map start.toNat) n = false →
          t.sup.answered p (.denied .burst) ∧ (t.sup.port p).waits = 0) ∧
        (¬apart → readLengthOk map (windowAt map start.toNat) n = true →
          (t.sup.port p).timer = none ∧ (t.sup.port p).response = none ∧ (t.sup.port p).waits = (s.sup.port p).waits ∧
            (t.sup.port p).collection =
              .awaiting (.read start.toNat n
                (if p = .panel ∧ start.toNat ≤ s.sup.place .status 14 ∧ s.sup.place .status 14 < start.toNat + n then
                  some (s.sup.place .status 14 - start.toNat)
                else none))))) ∧
  (∀ (map : List Window) (a : Nat),
    let within := fun (low high : Nat) => low ≤ a ∧ a ≤ high
    let holds := fun n =>
      let v := windowRecord map n
      v.cls ≠ .unused ∧ v.base ≤ a ∧ a < v.base + v.size;
    (windowAt map a = .schedule ↔ within 0x3E000 0x3E1FF) ∧ (windowAt map a = .charter ↔ within 0x3F000 0x3F3FF) ∧
      (windowAt map a = .retained ↔ within 0x3FF00 0x3FF1F) ∧
      (windowAt map a = .retainedPlain ↔
        0x3C000 ≤ a ∧ ¬within 0x3E000 0x3E1FF ∧ ¬within 0x3F000 0x3F3FF ∧ ¬within 0x3FF00 0x3FF1F) ∧
      (∀ n, windowAt map a = .configured n ↔ a < 0x3C000 ∧ holds n ∧ ∀ m, m < n → ¬holds m) ∧
      (windowAt map a = .default ↔ a < 0x3C000 ∧ ∀ n, ¬holds n)) ∧
  (∀ (map : List Window) (w : WindowId) (n : Nat),
    let single := ∃ k, w = .configured k ∧ (windowRecord map k).cls = .plain ∧ (windowRecord map k).bursts = false;
    (single → (readLengthOk map w n = true ↔ n = 1)) ∧ (¬single → (readLengthOk map w n = true ↔ 1 ≤ n ∧ n ≤ 8)))

/-- The checks are made in their order: SPAN, BURST, then ownership and record checks, then the lock of a gated window and of the
SCHEDULE window, then the lit check of a lit-only PLAIN window, which offers the write where neither lamp is LIT; what passes
them all is applied. The lengths of a write are those of its record, by window and offset; a word that holds no record allows
any. A whole write that a check refuses is answered DENIED with its reason and changes nothing else.
The model's choice: log 1. -/
def Obligations.ChecksRefuseInOrder : Prop :=
  (∀ (c : Instr) (p : Port) (a : Nat) (bs : List Word) (r : DenyReason) (s : State), c.wellFormed = true →
    s.sup.writeOf c = some (p, a, bs) → s.sup.meets p a bs (.denied r) →
    ∃ t, exec c s = .next t ∧ s.keepsMemory t ∧ t.sup.answered p (.denied r) ∧ (t.sup.port p).waits = 0 ∧
      (t.sup.port p).faults = (s.sup.port p).faults ∧ (t.sup.port p).quarantined = false ∧ s.sup.keepsOthers t.sup p ∧
      s.sup.keepsBlocks t.sup ∧ s.sup.keepsClock t.sup ∧ t.sup.hold = s.sup.hold ∧
      t.sup.ring.attention = s.sup.ring.attention ∧ s.sup.makesNoReport t.sup) ∧
  (∀ (s : Sup) (p : Port) (a : Nat) (bs : List Word), bs ≠ [] →
    (let map := s.chart.windows
      let apart := Config.memoryWords < a + bs.length ∨ ∃ i, i < bs.length ∧ windowAt map (a + i) ≠ windowAt map a
      (apart → s.classify p a bs = .denied .span) ∧
      (¬apart → writeLengthOk map (windowAt map a) a bs.length = false → s.classify p a bs = .denied .burst) ∧
      (∀ r, ¬apart → writeLengthOk map (windowAt map a) a bs.length = true → s.stepFive (windowAt map a) p a bs = .error r →
        s.classify p a bs = .denied r) ∧
      (∀ c n, ¬apart → writeLengthOk map (windowAt map a) a bs.length = true → windowAt map a = .configured n →
        s.stepFive (windowAt map a) p a bs = .ok c → (windowRecord map n).gated = true →
        (s.chart.permit.at s.lock.level).get p = false →
        s.classify p a bs = if (windowRecord map n).lockHold then .offered .lock n else .denied .locked) ∧
      (∀ c n, ¬apart → writeLengthOk map (windowAt map a) a bs.length = true → windowAt map a = .configured n →
        s.stepFive (windowAt map a) p a bs = .ok c →
        ((windowRecord map n).gated = true → (s.chart.permit.at s.lock.level).get p = true) →
        s.classify p a bs =
          if (windowRecord map n).cls = .plain ∧ (windowRecord map n).litOnly = true ∧
              s.lamp.lamps.a.state ≠ .lit ∧ s.lamp.lamps.b.state ≠ .lit then
            .offered .lit n
          else .applied c) ∧
      (∀ c, ¬apart → writeLengthOk map (windowAt map a) a bs.length = true → s.stepFive (windowAt map a) p a bs = .ok c →
        (windowAt map a = .schedule →
          s.classify p a bs = if (s.chart.permit.at s.lock.level).get p then .applied c else .denied .locked) ∧
        (windowAt map a = .charter ∨ windowAt map a = .retained ∨ windowAt map a = .retainedPlain ∨
            windowAt map a = .default →
          s.classify p a bs = .applied c)))) ∧
  (∀ (map : List Window) (a n : Nat), 1 ≤ n → n ≤ 8 →
    (∀ k,
      let v := windowRecord map k
      let o := a - v.base
      let allowed := fun (c : Prop) => writeLengthOk map (.configured k) a n = true ↔ c;
      (v.cls = .plain → allowed (v.bursts = true ∨ n = 1)) ∧
        (v.cls = .light ∨ v.cls = .mute → allowed (o = 0 → n = 1)) ∧ (v.cls = .status → allowed (o < 32 → n = 1)) ∧
        (v.cls = .claim → allowed (o < 5 → n = 1)) ∧ (v.cls = .geometry → allowed (o < 8 → o + n ≤ 8)) ∧
        (v.cls = .clock → allowed (o < 2 → o = 0 ∧ n = 2)) ∧
        (v.cls = .service → allowed (o < 6 → (o = 2 ∧ n = 2) ∨ (o ∈ [0, 1, 4, 5] ∧ n = 1)))) ∧
      (writeLengthOk map .schedule a n = true ↔
        (a = 0x3E000 → n = 1) ∧ (0x3E010 ≤ a → a < 0x3E190 → (a - 0x3E010) % 8 + n ≤ 8)) ∧
      (∀ w, w = .charter ∨ w = .retained ∨ w = .retainedPlain ∨ w = .default → writeLengthOk map w a n = true))

/-- A whole write offered to the hold table: HELD where it has room, as a new last entry that supersedes the port's own entry of
the same start; else a counted WAIT or DENIED FULL by the window's exhaustion policy and the retry limit, the table as it was.
The retry limit makes its report and raises PORT; no other outcome makes a report. The model's choice: log 1, 16, 52. -/
def Obligations.OfferedWriteIsHeldOrTurnedAway : Prop :=
  ∀ (c : Instr) (p : Port) (a : Nat) (bs : List Word) (cond : Condition) (n : Nat) (s : State), c.wellFormed = true →
    s.sup.writeOf c = some (p, a, bs) → s.sup.meets p a bs (.offered cond n) →
    ∃ t, exec c s = .next t ∧ s.keepsMemory t ∧ s.sup.keepsOthers t.sup p ∧ s.sup.keepsBlocks t.sup ∧
      s.sup.keepsClock t.sup ∧ (t.sup.port p).faults = (s.sup.port p).faults ∧ (t.sup.port p).quarantined = false ∧
      (let others := s.sup.hold.entries.filter fun e => !(e.port == p && e.start == a)
        let room := others.length < 24 ∧
          wordsOfEntries others + wordsOfReleases s.sup.mp.releases + wordsInAccess s.sup.mp.access + bs.length ≤ 64
        let waits := min ((s.sup.port p).waits + 1) 255
        let limit := s.sup.chart.port.retryLimit
        (room →
          s.sup.makesNoReport t.sup ∧ t.sup.answered p .held ∧ (t.sup.port p).waits = 0 ∧
            t.sup.hold.entries =
              others ++
                [{ port := p, start := a, data := bs, window := n, condition := cond, time := s.sup.room.uptime
                   sequence := s.sup.hold.counter, serial := s.sup.hold.made }]) ∧
        (¬room → t.sup.hold = s.sup.hold) ∧
        (¬room → (windowRecord s.sup.chart.windows n).exhaustWait = false →
          s.sup.makesNoReport t.sup ∧ t.sup.answered p (.denied .full) ∧ (t.sup.port p).waits = 0) ∧
        (¬room → (windowRecord s.sup.chart.windows n).exhaustWait = true → (limit = 0 ∨ waits < limit) →
          s.sup.makesNoReport t.sup ∧ t.sup.answered p .wait ∧ (t.sup.port p).waits = waits) ∧
        (¬room → (windowRecord s.sup.chart.windows n).exhaustWait = true → limit ≠ 0 → limit ≤ waits →
          t.sup.answered p (.denied .full) ∧ (t.sup.port p).waits = 0 ∧ t.sup.ring.attention.port = true ∧
            ∃ d, s.sup.reportsOnly t.sup [s.sup.reportOf .retryLimit p.code d]))

/-- A whole write that is forwarded awaits the memory port with its range and beats as issued; the port's own held write and unbegun
release items of the same start are gone. The model's choice: log 1, 19, 33. -/
def Obligations.ForwardedWriteAwaitsMemory : Prop :=
  ∀ (c : Instr) (p : Port) (a : Nat) (bs : List Word) (s : State), c.wellFormed = true →
    s.sup.writeOf c = some (p, a, bs) → s.sup.applies p a bs .forward →
    ∃ t, exec c s = .next t ∧ s.keepsMemory t ∧ s.sup.keepsOthers t.sup p ∧ s.sup.keepsBlocks t.sup ∧
      s.sup.keepsClock t.sup ∧ (t.sup.port p).collection = .awaiting (.write a bs) ∧ (t.sup.port p).timer = none ∧
      (t.sup.port p).response = none ∧ (t.sup.port p).faults = (s.sup.port p).faults ∧
      (t.sup.port p).waits = (s.sup.port p).waits ∧ s.sup.supersedes t.sup p a ∧
      (∀ r ∈ t.sup.mp.releases, ¬(r.port = p ∧ r.start = a)) ∧ s.sup.makesNoReport t.sup

/-- A whole write that is merged is answered DONE at once and writes back the part's own value of each word: the status page word's
value, or the retained word's value, with nothing queued for a retained word of an invalid lamp record. The status page words carry
their fields in their places. The model's choice: log 1, 42. -/
def Obligations.MergedWriteQueuesThePartsValue : Prop :=
  (∀ (c : Instr) (p : Port) (a : Nat) (bs : List Word) (s : State), c.wellFormed = true →
    s.sup.writeOf c = some (p, a, bs) → s.sup.applies p a bs .merge →
    ((∃ o, o < 32 ∧ o ≠ 16 ∧ a = s.sup.place .status o ∧ a < Config.retainedBase) ∨ Config.retainedBase ≤ a) →
    ∃ t, exec c s = .next t ∧ s.takesRecord t p a ∧ s.sup.keepsOthers t.sup p ∧ s.sup.keepsBlocks t.sup ∧
      t.sup.admission = s.sup.admission ∧ s.sup.makesNoReport t.sup ∧
      (∀ o, o < 32 → o ≠ 16 → a = s.sup.place .status o → a < Config.retainedBase → s.sup.charter.isSome = true →
        t.sup.queued a (t.sup.statusWord o)) ∧
      (Config.retainedBase ≤ a → s.sup.place .status 31 < Config.retainedBase →
        ∀ k, k < bs.length →
          (∀ v, s.sup.retainedWord? (a + k) = some v → t.sup.queued (a + k) v) ∧
            (s.sup.retainedWord? (a + k) = none → ∀ v, t.sup.queued (a + k) v → s.sup.queued (a + k) v))) ∧
  (∀ (u : Sup),
    (∀ l : Lamp, u.statusWord l.code = word (u.lamp.lamps.get l).command.code) ∧
    (u.statusWord 2).toNat =
      (if u.lamp.noLamp then 1024 else 0) + 256 * u.wear.lamps.b.stage.code + 64 * u.wear.lamps.a.stage.code +
        8 * u.lamp.lamps.b.state.code + u.lamp.lamps.a.state.code ∧
    (u.statusWord 3).toNat = u.seq.liveSelect.code ∧ (u.statusWord 4).toNat = u.seq.liveMute.code ∧
    u.statusWord 5 = u.notice.overlay ∧
    (∀ i, i < 8 → 0 ≤ u.geo.live.at i → u.geo.live.at i < 2048 →
      ((u.statusWord (6 + i)).toNat : Int) = u.geo.live.at i) ∧
    (u.statusWord 14).toNat =
      (if u.ring.attention.ring then 128 else 0) + (if u.ring.attention.setup then 64 else 0) +
        (if u.ring.attention.port then 32 else 0) + (if u.ring.attention.lamp then 16 else 0) +
        (if u.ring.attention.lamp then 1 else if u.ring.attention.port then 2 else if u.ring.attention.setup then 3
        else if u.ring.attention.ring then 4 else 0) ∧
    (u.ring.head < 256 → (u.statusWord 15).toNat = u.ring.head) ∧
    (u.ring.tail < 256 → (u.statusWord 16).toNat = (if u.ring.overflow then 32768 else 0) + u.ring.tail) ∧
    (u.statusWord 17).toNat =
      (if u.lock.takeover.isSome then 192 else 0) + (if u.lock.key then 16 else 0) + 4 * u.lock.schedule.code +
        u.lock.level.code ∧
    (u.statusWord 18).toNat =
      256 * u.source.target.code + 4 * (match u.source.winner with | some k => k.code | none => 7) + u.seq.state.code ∧
    (u.poolInUse ≤ 64 → u.hold.entries.length ≤ 24 →
      (u.statusWord 19).toNat = 256 * u.poolInUse + u.hold.entries.length) ∧
    ((∀ i, u.sched.current = some i → i < 48) →
      (u.statusWord 20).toNat =
        256 * (match u.sched.current with | some i => i | none => 63) + 2 * u.sched.state.code +
          (if u.room.isSet then 1 else 0)) ∧
    ((∀ p, (u.port p).faults ≤ 15) →
      (u.statusWord 21).toNat =
          4096 * u.ports.lectern.faults + 256 * u.ports.panel.faults + (if u.ports.service.quarantined then 8 else 0) +
            (if u.ports.campus.quarantined then 4 else 0) + (if u.ports.lectern.quarantined then 2 else 0) +
            (if u.ports.panel.quarantined then 1 else 0) ∧
        (u.statusWord 22).toNat = 16 * u.ports.service.faults + u.ports.campus.faults) ∧
    (u.statusWord 23).toNat = 32768 * u.wear.lastCause.code + u.wear.startCount.toNat % 256 ∧
    (u.statusWord 24).toNat = (if u.isFallback then 32768 else 0) + u.chart.version.toNat % 32768 ∧
    (∀ o, 25 ≤ o → u.statusWord o = 0))

/-! ### The memory port -/

/-- MEMORY_ACCESS_DONE of an access that writes: each of its words is written and then has good parity, every other word stands. Of
an access that reads, for a port or as a piece of an internal read: every word stands, and the words that fail the parity check
are those that failed before and those of its run found failing now. The model's choice: log 10, 11, 35. -/
def Obligations.AccessWritesItsWordsOnly : Prop :=
  ∀ (s : State) (failing : List Addr) (access : Access), s.memoryLaw → s.sup.mp.access = some access →
    ∃ t, exec (.memoryAccessDone failing) s = .next t ∧ t.pending = s.pending ∧
      (match access.writes with
        | some (start, vs) =>
          (∀ k, k < vs.length → start + k < Config.memoryWords →
            t.mem.read (start + k) = vs.getD k 0 ∧ t.mem.bad.contains (start + k) = false) ∧
          (∀ x, x < start ∨ start + vs.length ≤ x →
            t.mem.read x = s.mem.read x ∧ t.mem.bad.contains x = s.mem.bad.contains x)
        | none =>
          (∀ x, t.mem.read x = s.mem.read x) ∧ (∀ x, s.mem.bad.contains x = true → t.mem.bad.contains x = true) ∧
          (∀ start n, ((∃ p at?, access = .port p (.read start n at?)) ∨ ∃ number, access = .piece number start n) →
            ∀ x, x < Config.memoryWords →
              (t.mem.bad.contains x = true ↔
                s.mem.bad.contains x = true ∨ (x ∈ failing.map BitVec.toNat ∧ start ≤ x ∧ x < start + n))))

/-- MEMORY_ACCESS_DONE answers a port's access: a write DONE; a read DONE with its words, or FAULT with the cause SETUP and a
PARITY report of the first word that fails. A PANEL read of ATTENTION takes away the causes its data show. Any other access
leaves every port as it was. The words of an internal read's piece, with their parity, join their read, and no other access
changes an internal read. The model's choice: log 10, 34. -/
def Obligations.AccessAnswersItsPort : Prop :=
  ∀ (s : State) (failing : List Addr) (access : Access), s.sup.mp.access = some access →
    ∃ t, exec (.memoryAccessDone failing) s = .next t ∧ s.sup.keepsClock t.sup ∧ s.sup.keepsBase t.sup ∧
      s.sup.keepsLamps t.sup ∧ s.sup.keepsPicture t.sup ∧ s.sup.keepsRoom t.sup ∧ t.sup.lock = s.sup.lock ∧
      t.sup.hold = s.sup.hold ∧ t.sup.notice = s.sup.notice ∧ t.sup.geo = s.sup.geo ∧
      (∀ p a bs, access = .port p (.write a bs) → s.sup.answeredDone t.sup p [] ∧ s.sup.keepsOthers t.sup p) ∧
      (∀ p a n place, access = .port p (.read a n place) →
        s.sup.keepsOthers t.sup p ∧
        ((∀ x, a ≤ x → x < a + n → t.mem.bad.contains x = false) →
          s.sup.answeredDone t.sup p ((List.range n).map fun k => s.mem.read (a + k)) ∧
            t.sup.ring.attention =
              (match place with
                | none => s.sup.ring.attention
                | some i =>
                  { lamp := s.sup.ring.attention.lamp && !(i < n && bit (s.mem.read (a + i)) 4)
                    port := s.sup.ring.attention.port && !(i < n && bit (s.mem.read (a + i)) 5)
                    setup := s.sup.ring.attention.setup && !(i < n && bit (s.mem.read (a + i)) 6)
                    ring := s.sup.ring.attention.ring })) ∧
        ((∃ x, a ≤ x ∧ x < a + n ∧ t.mem.bad.contains x = true) →
          t.sup.answered p .fault ∧ (t.sup.port p).faults = (s.sup.port p).faults ∧ (t.sup.port p).waits = 0 ∧
            (t.sup.port p).quarantined = (s.sup.port p).quarantined ∧ t.sup.ring.attention.setup = true) ∧
        (∀ x, a ≤ x → x < a + n → t.mem.bad.contains x = true → (∀ y, a ≤ y → y < x → t.mem.bad.contains y = false) →
          s.sup.reportsOnly t.sup [s.sup.reportOf .parity (x / 65536 % 4 * 16 + p.code) (word (x % 65536))])) ∧
      ((∀ p r, access ≠ .port p r) → s.sup.keepsPorts t.sup) ∧
      (∀ number start n, access = .piece number start n →
        t.sup.mp.reads =
          s.sup.mp.reads.map fun r =>
            if r.number = number ∧ r.start + r.words.length = start then
              { r with
                words :=
                  r.words ++
                    (List.range n).map fun k =>
                      { value := s.mem.read (start + k), bad := t.mem.bad.contains (start + k) } }
            else r) ∧
      ((∀ number start n, access ≠ .piece number start n) → t.sup.mp.reads = s.sup.mp.reads)

/-- MEMORY_ACCESS_DONE of a report record: the record leaves the front of the report queue, where it stood while memory wrote it,
the head advances round the ring, the record's uptime joins the unread list and RING is judged; every other access leaves the
ring as it was. RING's cause holds at the threshold of unread records, or with the oldest older than the ring age.
The model's choice: log 22, 30. -/
def Obligations.RecordAdvancesTheHead : Prop :=
  (∀ (s : State) (failing : List Addr) (access : Access), s.sup.mp.access = some access → s.sup.charter.isSome = true →
    ∃ t, exec (.memoryAccessDone failing) s = .next t ∧ t.sup.ring.tail = s.sup.ring.tail ∧
      (∀ a r, access = .record a r →
        t.sup.ring.head = (s.sup.ring.head + 1) % s.sup.chart.ring.count ∧
          t.sup.ring.unread = s.sup.ring.unread ++ [r.uptime] ∧ t.sup.ring.attention.ring = t.sup.ringCauseHolds ∧
          t.sup.mp.reports = s.sup.mp.reports.tail) ∧
      ((∀ a r, access ≠ .record a r) → s.sup.keepsRing t.sup)) ∧
  (∀ (u : Sup), u.ringCauseHolds = true ↔
    u.chart.ring.threshold ≤ u.ring.unread.length ∨
      ∃ oldest, u.ring.unread.head? = some oldest ∧ u.chart.ring.age < (u.room.uptime - oldest).toNat)

/-- The arbiter's grant: with the memory port free and a member ready it takes, in each ring, the ready member that comes first in
ring order from the pointer, in FIXED mode that of highest priority, and moves the pointer in ROTATING mode only. A read is not
ready while an internal write of its words is queued. INTERNAL serves a control write, then a piece of a read, then a release
item, then a report record; a record that finds the ring full is dropped with the overflow flag set, and takes no access.
The model's choice: log 20, 21, 44. -/
def Obligations.ArbiterGrantsInRingOrder : Prop :=
  (∀ m : FirstRing, m.following.place = (m.place + 1) % 4) ∧ (∀ m : SecondRing, m.following.place = (m.place + 1) % 2) ∧
  (∀ (s : Sup) (p : Port),
    ((∀ r, (s.port p).collection ≠ .awaiting r) → s.portReady p = false) ∧
    (∀ a bs, (s.port p).collection = .awaiting (.write a bs) → s.portReady p = true) ∧
    (∀ a n place, (s.port p).collection = .awaiting (.read a n place) →
      (s.portReady p = true ↔
        (∀ e ∈ s.mp.control, e.1 < a ∨ a + n ≤ e.1) ∧
          (∀ item ∈ s.mp.releases, item.start + item.data.length ≤ a ∨ a + n ≤ item.start) ∧
          (∀ k, k < s.mp.reports.length → s.ring.unread.length + k + 1 < s.chart.ring.count →
            let slot := s.chart.ring.base + 4 * ((s.ring.head + k) % s.chart.ring.count)
            slot + 4 ≤ a ∨ a + n ≤ slot)))) ∧
  (∀ (s : Sup),
    (s.firstReady .internal = true ↔
      s.mp.control ≠ [] ∨ (∃ r ∈ s.mp.reads, r.words.length < r.length) ∨ s.mp.releases ≠ [] ∨
        (s.mp.reports ≠ [] ∧ s.charter.isSome = true)) ∧
    s.firstReady .lectern = s.portReady .lectern ∧ s.firstReady .panel = s.portReady .panel ∧
    (∀ m : SecondRing, s.secondReady m = s.portReady m.port) ∧
    s.firstReady .group = (s.secondReady .campus || s.secondReady .service) ∧
    (s.mp.access.isSome = true ∨ (∀ m, s.firstReady m = false) → s.grant = s)) ∧
  (∀ (s : State) (ch : Charter), s.arbiterLaw → s.sup.charter = some ch → ch.port.fixedArbiter = true →
    (∀ m n, s.sup.takesFirst m → s.sup.firstReady n = true → m.place ≤ n.place) ∧
      (∀ m n, s.sup.takesSecond m → s.sup.secondReady n = true → m.place ≤ n.place)) ∧
  (∀ (s : Sup) (m : FirstRing), s.mp.access = none → s.takesFirst m →
    let mp := s.pastFirst m;
    (∀ p r, (m = .lectern ∧ p = .lectern) ∨ (m = .panel ∧ p = .panel) → (s.port p).collection = .awaiting r →
      s.grant = { s with mp := { mp with access := some (.port p r) } }) ∧
    (∀ k r, m = .group → s.takesSecond k → (s.port k.port).collection = .awaiting r →
      s.grant =
        { s with
          mp :=
            { mp with
              access := some (.port k.port r)
              second := if s.chart.port.fixedArbiter then s.mp.second else k.following } }) ∧
    (∀ a v rest, m = .internal → s.mp.control = (a, v) :: rest →
      s.grant = { s with mp := { mp with control := rest, access := some (.control a v) } }) ∧
    (∀ before r later, m = .internal → s.mp.control = [] → s.mp.reads = before ++ r :: later →
      (∀ q ∈ before, q.length ≤ q.words.length) → r.words.length < r.length →
      s.grant =
        { s with
          mp :=
            { mp with
              access := some (.piece r.number (r.start + r.words.length) (min 8 (r.length - r.words.length))) } }) ∧
    (m = .internal → s.mp.control = [] → (∀ q ∈ s.mp.reads, q.length ≤ q.words.length) →
      (∀ item rest, s.mp.releases = item :: rest →
        s.grant = { s with mp := { mp with releases := rest, access := some (.release item) } }) ∧
      (∀ r rest, s.mp.releases = [] → s.mp.reports = r :: rest →
        let full := (s.ring.head + 1) % s.chart.ring.count = s.ring.tail % s.chart.ring.count;
        (¬full →
          s.grant = { s with mp := { mp with access := some (.record (s.chart.ring.base + 4 * s.ring.head) r) } }) ∧
        (full → s.ring.overflow = false →
          s.grant =
            { s with
              mp :=
                { mp with
                  reports := rest
                  access := some (.control (s.place .status 16) (word (32768 + s.ring.tail))) }
              ring := { s.ring with overflow := true } }) ∧
        (full → s.ring.overflow = true → s.grant = { s with mp := { mp with reports := [] } }.grant))))

/-! ### Records taken from ports -/

/-- RING_TAIL accepted: the tail moves, the freed records leave the unread list, the overflow flag is cleared, also by the tail
already held with the ring still full, the RING_TAIL word is queued and RING is judged. The model's choice: log 1, 2. -/
def Obligations.RingTailFreesRecords : Prop :=
  ∀ (p : Port) (w : Word) (s : State), s.sup.place .status 16 < Config.retainedBase →
    s.sup.applies p (s.sup.place .status 16) [w] .merge →
    ∃ t, exec (.ringTail p w) s = .next t ∧ s.takesRecord t p (s.sup.place .status 16) ∧ s.sup.keepsOthers t.sup p ∧
      t.sup.ring.tail = bits w 7 0 ∧ t.sup.ring.head = s.sup.ring.head ∧
      t.sup.ring.unread = s.sup.ring.unread.drop (slotsFrom s.sup.chart.ring.count s.sup.ring.tail (bits w 7 0)) ∧
      t.sup.ring.overflow = false ∧
      (s.sup.charter.isSome = true → t.sup.queued (s.sup.place .status 16) (word (bits w 7 0))) ∧
      (s.sup.charter.isSome = true → t.sup.ring.attention.ring = t.sup.ringCauseHolds) ∧
      t.sup.ring.attention.lamp = s.sup.ring.attention.lamp ∧ t.sup.ring.attention.port = s.sup.ring.attention.port ∧
      t.sup.ring.attention.setup = s.sup.ring.attention.setup ∧ s.sup.keepsBase t.sup ∧ s.sup.keepsLamps t.sup ∧
      s.sup.keepsPicture t.sup ∧ s.sup.keepsRoom t.sup ∧ t.sup.lock = s.sup.lock ∧ t.sup.notice = s.sup.notice ∧
      t.sup.geo = s.sup.geo ∧ t.sup.admission = s.sup.admission

/-- LIGHT_WRITE accepted: the demand takes the level and the uptime. A level of the same value does no more; OFF takes a striking
or lit lamp to COOLING, with a LAMP_OFF report of the state it left; another ON level is taken by a lit lamp; from OFF a strike
decision is made: in DUAL mode every dark usable lamp is struck, in ALTERNATE mode the duty lamp is chosen and struck where it
is dark. Every change judges NO_LAMP, whose changes are reported and noticed. The model's choice: log 1, 2, 6, 7. -/
def Obligations.LightWriteSetsTheDemand : Prop :=
  ∀ (p : Port) (w : Word) (v : LightLevel) (s : State), s.sup.applies p (s.sup.place .light 0) [w] (.absorb (.light v)) →
    ∃ t, exec (.lightWrite p w) s = .next t ∧ s.takesRecord t p (s.sup.place .light 0) ∧ s.sup.keepsOthers t.sup p ∧
      s.sup.keepsBase t.sup ∧ s.sup.keepsPicture t.sup ∧ s.sup.keepsRoom t.sup ∧ s.sup.keepsRing t.sup ∧
      t.sup.lock = s.sup.lock ∧ t.sup.geo = s.sup.geo ∧ t.sup.admission = s.sup.admission ∧
      t.sup.lamp.demand = { level := v, setTime := s.sup.room.uptime } ∧
      (s.sup.lamp.demand.level = v →
        t.sup.lamp = { s.sup.lamp with demand := t.sup.lamp.demand } ∧ t.sup.wear = s.sup.wear ∧
          t.sup.notice = s.sup.notice ∧ t.sup.ring.attention = s.sup.ring.attention) ∧
      (s.sup.lamp.demand.level ≠ v → v = .off →
        t.sup.lamp.duty = none ∧
          ∀ l, t.sup.lamp.lamps.get l =
            if (s.sup.lamp.lamps.get l).state = .striking ∨ (s.sup.lamp.lamps.get l).state = .lit then
              { s.sup.lamp.lamps.get l with
                state := .cooling, command := .off, marked := false
                timer := some (s.sup.after (periodsOfSeconds s.sup.chart.lamp.cooldown)) }
            else s.sup.lamp.lamps.get l) ∧
      (∀ l, s.sup.lamp.demand.level ≠ v → v = .off →
        (s.sup.lamp.lamps.get l).state = .striking ∨ (s.sup.lamp.lamps.get l).state = .lit →
        s.sup.reportsAlso t.sup (s.sup.reportOf .lampOff l.code (word (s.sup.lamp.lamps.get l).state.code))) ∧
      (s.sup.lamp.demand.level ≠ v → v ≠ .off → s.sup.lamp.demand.level ≠ .off →
        t.sup.lamp.duty = s.sup.lamp.duty ∧ t.sup.wear = s.sup.wear ∧
          ∀ l, t.sup.lamp.lamps.get l =
            if (s.sup.lamp.lamps.get l).state = .lit then { s.sup.lamp.lamps.get l with command := v }
            else s.sup.lamp.lamps.get l) ∧
      (v ≠ .off → s.sup.lamp.demand.level = .off → s.sup.chart.lamp.dual = true →
        ∀ l, s.sup.strikeable l = true →
          (t.sup.lamp.lamps.get l).state = (if s.sup.lines.lampok.get l then .warming else .striking) ∧
            (t.sup.lamp.lamps.get l).command = .normal) ∧
      (v ≠ .off → s.sup.lamp.demand.level = .off →
        { s.sup with lamp := { s.sup.lamp with demand := t.sup.lamp.demand } }.decided t.sup) ∧
      (s.sup.lamp.demand.level ≠ v → t.sup.noLampExact) ∧
      ({ s.sup with lamp := { s.sup.lamp with demand := t.sup.lamp.demand } } : Sup).noLampFollows t.sup

/-- CLAIM_WRITE accepted: the port's own claim takes the word and the uptime, and the resolver resolves; no other claim changes. A
claim counts by the four tests of the source, the effective priority, the permit and the signal; its effective priority is that
of its class and mode; and one claim outranks another by priority, then by the tie order. The NO_SIGNAL condition holds where
some claim lacks its signal alone, and its start raises the notice, its end ends it. The model's choice: log 1, 2. -/
def Obligations.ClaimWriteResolves : Prop :=
  (∀ (p q : Port) (offset : Fin 8) (w : Word) (c : ClaimWord) (s : State),
    s.sup.applies p (s.sup.place .claim offset.val) [w] (.absorb (.claim q c)) →
    ∃ t, exec (.claimWrite p offset w) s = .next t ∧ s.takesRecord t p (s.sup.place .claim offset.val) ∧
      s.sup.keepsOthers t.sup p ∧ s.sup.keepsBase t.sup ∧ s.sup.keepsLamps t.sup ∧ s.sup.keepsRoom t.sup ∧
      s.sup.keepsRing t.sup ∧ t.sup.lock = s.sup.lock ∧ t.sup.geo = s.sup.geo ∧
      t.sup.admission = s.sup.admission ∧ p = q ∧
      t.sup.source.claims = s.sup.source.claims.set p.claimant { word := c, time := s.sup.room.uptime } ∧
      t.sup.source.signals = s.sup.source.signals ∧ t.sup.source.requestedMute = s.sup.source.requestedMute ∧
      t.sup.resolved ∧
      (s.sup.source.noSignal = false → t.sup.source.noSignal = true → t.sup.raised .noSignal) ∧
      (s.sup.source.noSignal = true → t.sup.source.noSignal = false → ¬t.sup.raised .noSignal)) ∧
  (∀ (u : Sup) (c : Claimant),
    let word := (u.source.claims.get c).word
    u.counts c = true ↔
      ∃ n, word.source = some n ∧ (u.chart.inputEntry n).valid = true ∧ 0 < effective u.chart word ∧
        (c = .schedule ∨ ∃ p : Port, p.claimant = c ∧ (u.chart.permit.at u.lock.level).get p = true) ∧
        ((u.chart.inputEntry n).needsSignal = true → ∀ i, (u.chart.inputEntry n).select = .input i → (u.signal i).present = true)) ∧
  (∀ (ch : Charter) (word : ClaimWord),
    let entry := ch.priorityEntry word.cls
    (entry.urgentMode = false → effective ch word = entry.number) ∧
      (entry.urgentMode = true →
        effective ch word / 2 = entry.number / 2 ∧ (effective ch word % 2 = 1 ↔ word.urgent = true))) ∧
  (∀ (u : Sup) (c d : Claimant),
    let x := effective u.chart (u.source.claims.get c).word
    let y := effective u.chart (u.source.claims.get d).word
    let order : List Claimant := [.schedule, .lectern, .panel, .campus, .service]
    u.outranks c d = true ↔ y < x ∨ (x = y ∧ order.idxOf c < order.idxOf d))

/-- MUTE_WRITE accepted: the requested mute takes the value, and so does LIVE_MUTE in IDLE and REVEALING; a new value is written
to the mirror. The model's choice: log 1, 2. -/
def Obligations.MuteWriteSetsTheRequest : Prop :=
  ∀ (p : Port) (w : Word) (m : Mute) (s : State), s.sup.applies p (s.sup.place .mute 0) [w] (.absorb (.mute m)) →
    ∃ t, exec (.muteWrite p w) s = .next t ∧ s.takesRecord t p (s.sup.place .mute 0) ∧ s.sup.keepsOthers t.sup p ∧
      s.sup.keepsBase t.sup ∧ s.sup.keepsLamps t.sup ∧ s.sup.keepsRoom t.sup ∧ s.sup.keepsRing t.sup ∧
      t.sup.lock = s.sup.lock ∧ t.sup.notice = s.sup.notice ∧ t.sup.geo = s.sup.geo ∧
      t.sup.admission = s.sup.admission ∧ t.sup.source = { s.sup.source with requestedMute := m } ∧
      t.sup.seq =
        { s.sup.seq with
          liveMute := if s.sup.seq.state = .idle ∨ s.sup.seq.state = .revealing then m else s.sup.seq.liveMute } ∧
      (s.sup.source.requestedMute ≠ m → s.sup.charter.isSome = true → s.sup.apart (s.sup.place .mute 0) →
        t.sup.queued (s.sup.place .mute 0) (word m.code))

/-- TRIM_WRITE accepted: the trim takes the written coordinates, the target follows it, the live corners stand, and each coordinate
with a new value is written to the mirror. The model's choice: log 1, 2. -/
def Obligations.TrimWriteMovesTheTarget : Prop :=
  ∀ (p : Port) (offset : Fin 8) (bs : List Word) (c : Corners) (s : State), lengthExpressible bs.length = true →
    s.sup.applies p (s.sup.place .geometry offset.val) bs (.absorb (.trim c)) →
    ∃ t, exec (.trimWrite p offset bs) s = .next t ∧ s.takesRecord t p (s.sup.place .geometry offset.val) ∧
      s.sup.keepsOthers t.sup p ∧ s.sup.keepsBase t.sup ∧ s.sup.keepsLamps t.sup ∧ s.sup.keepsPicture t.sup ∧
      s.sup.keepsRoom t.sup ∧ s.sup.keepsRing t.sup ∧ t.sup.lock = s.sup.lock ∧ t.sup.notice = s.sup.notice ∧
      t.sup.admission = s.sup.admission ∧
      t.sup.geo.trim = c ∧ t.sup.geo.target = targetOf s.sup.geoParams c ∧ t.sup.geo.live = s.sup.geo.live ∧
      t.sup.geo.slewing = (t.sup.geo.live != t.sup.geo.target) ∧
      (∀ i, i < 8 → s.sup.geo.trim.at i ≠ c.at i → s.sup.charter.isSome = true →
        t.sup.queued (s.sup.place .geometry i) (coordWord (c.at i)))

/-- What step 5 accepts and refuses: the words of LIGHT, MUTE, CLAIM, GEOMETRY, CLOCK, STATUS, SERVICE and the SCHEDULE header, the
offsets that hold no record, and the reason of each refusal. A write that starts at CLOCK offset 1 or at SERVICE offset 3 has
been refused BURST at step 3, so that the RECORD given for it here is never reached. A configured window's write is judged by
the window's class at its offset from the base; CHARTER from a port other than SERVICE is refused FOREIGN; RETAINED is merged;
CHARTER from SERVICE, RETAINED PLAIN, a PLAIN window and the default region are forwarded. -/
def Obligations.RecordWordsAreJudged : Prop :=
  ∀ (s : Sup) (v : Window) (p : Port) (w w' : Word) (offset : Nat) (bs : List Word),
    (v.cls = .light → s.acceptRecord v p 0 [w] =
      if w.toNat < 4 then .ok (.absorb (.light (.ofCode w.toNat))) else .error .record) ∧
    (v.cls = .mute → s.acceptRecord v p 0 [w] =
      if w = 0 then .ok (.absorb (.mute .clear)) else if w = 1 then .ok (.absorb (.mute .muted)) else .error .record) ∧
    (v.cls = .light ∨ v.cls = .mute ∨ v.cls = .clock → offset ≠ 0 → s.acceptRecord v p offset bs = .error .record) ∧
    (v.cls = .claim → offset < 5 → offset ≠ p.code → s.acceptRecord v p offset [w] = .error .foreign) ∧
    (v.cls = .claim → 5 ≤ offset → s.acceptRecord v p offset [w] = .error .record) ∧
    (v.cls = .claim →
      let source := w.toNat % 32
      let reserved := w.toNat / 32 % 8 ≠ 0 ∨ w.toNat / 2048 % 16 ≠ 0
      let claim := fun (n : Option Nat) =>
        (.absorb (.claim p { source := n, cls := w.toNat / 256 % 8, urgent := decide (32768 ≤ w.toNat) }) : Course);
      (source = 31 → ¬reserved → s.acceptRecord v p p.code [w] = .ok (claim none)) ∧
        (source < 16 → ¬reserved → (s.chart.inputEntry source).valid = true →
          s.acceptRecord v p p.code [w] = .ok (claim (some source))) ∧
        (reserved ∨ (16 ≤ source ∧ source ≤ 30) ∨ (source < 16 ∧ (s.chart.inputEntry source).valid = false) →
          s.acceptRecord v p p.code [w] = .error .record)) ∧
    (v.cls = .geometry → offset < 8 → (∃ b ∈ bs, b.toInt < -512 ∨ 511 < b.toInt) →
      s.acceptRecord v p offset bs = .error .record) ∧
    (v.cls = .geometry → offset < 8 → (∀ b ∈ bs, -512 ≤ b.toInt ∧ b.toInt ≤ 511) →
      s.acceptRecord v p offset bs =
        let trim := candidateTrim s.geo.trim offset bs
        if orderOk s.chart.geometry (targetOf s.chart.geometry trim) then .ok (.absorb (.trim trim)) else .error .geometry) ∧
    (v.cls = .geometry → 8 ≤ offset → s.acceptRecord v p offset bs = .error .record) ∧
    (v.cls = .clock →
      (∀ day hour minute second, day ≤ 6 → hour ≤ 23 → minute ≤ 59 → second ≤ 59 →
        w.toNat = hour * 256 + day → w'.toNat = second * 256 + minute →
        s.acceptRecord v p 0 [w, w'] = .ok (.absorb (.clock (day * 86400 + hour * 3600 + minute * 60 + second)))) ∧
      ((∀ day hour minute second, day ≤ 6 → hour ≤ 23 → minute ≤ 59 → second ≤ 59 →
          ¬(w.toNat = hour * 256 + day ∧ w'.toNat = second * 256 + minute)) →
        s.acceptRecord v p 0 [w, w'] = .error .record)) ∧
    (v.cls = .status → offset < 32 → offset ≠ 16 → s.acceptRecord v p offset [w] = .ok .merge) ∧
    (v.cls = .status →
      let count := s.chart.ring.count
      let tail := w.toNat % 256
      let ahead := fun (i : Nat) => ((i : Int) - (s.ring.tail : Int)) % (count : Int);
      (tail < count ∧ ahead tail ≤ ahead s.ring.head → s.acceptRecord v p 16 [w] = .ok .merge) ∧
        (¬(tail < count ∧ ahead tail ≤ ahead s.ring.head) → s.acceptRecord v p 16 [w] = .error .record)) ∧
    (v.cls = .status → 32 ≤ offset → s.acceptRecord v p offset bs = .error .record) ∧
    (v.cls = .service → p ≠ .service → s.acceptRecord v p offset bs = .error .foreign) ∧
    (v.cls = .service →
      (∀ q : Port, w.toNat = q.code → s.acceptRecord v .service 0 [w] = .ok (.absorb (.portRelease q))) ∧
        (4 ≤ w.toNat → s.acceptRecord v .service 0 [w] = .error .record) ∧
        s.acceptRecord v .service 1 [w] =
          (if w = 1 then .ok (.absorb .takeoverStart) else if w = 2 then .ok (.absorb .takeoverEnd) else .error .record) ∧
        (∀ l : Lamp, w.toNat = l.code →
          let cell := s.lamp.lamps.get l
          s.acceptRecord v .service 2 [w, w'] =
              (if cell.state = .dark ∨ cell.state = .failed then .ok (.absorb (.lampReplace l w')) else .error .state) ∧
            s.acceptRecord v .service 4 [w] =
              (if cell.recordValid = true ∧ (cell.state = .failed ∨ (cell.state = .cooling ∧ cell.marked = true)) then
                .ok (.absorb (.lampClear l))
              else .error .state)) ∧
        (2 ≤ w.toNat → s.acceptRecord v .service 2 [w, w'] = .error .record ∧ s.acceptRecord v .service 4 [w] = .error .record) ∧
        s.acceptRecord v .service 5 [w] = .ok (.absorb .charterReload) ∧
        (offset = 3 ∨ 6 ≤ offset → s.acceptRecord v .service offset bs = .error .record)) ∧
    (∀ n enable, n ≤ 48 → w.toNat = (if enable then 16384 else 0) + n →
      s.stepFive .schedule p 0x3E000 [w] =
        if s.sched.state ≠ .disabled ∧ n ≠ s.sched.count then .error .active else .ok (.absorb (.header n enable))) ∧
    ((∀ n (enable : Bool), n ≤ 48 → w.toNat ≠ (if enable then 16384 else 0) + n) →
      s.stepFive .schedule p 0x3E000 [w] = .error .record) ∧
    (0x3E010 ≤ offset → offset < 0x3E190 →
      s.stepFive .schedule p offset bs = if s.sched.state = .disabled then .ok .forward else .error .active) ∧
    (offset ≠ 0x3E000 → offset < 0x3E010 ∨ 0x3E190 ≤ offset → s.stepFive .schedule p offset bs = .error .record) ∧
    (∀ n a,
      let v := windowRecord s.chart.windows n
      s.stepFive (.configured n) p a bs = s.acceptRecord v p (a - v.base) bs) ∧
    (v.cls = .plain → s.acceptRecord v p offset bs = .ok .forward) ∧
    (∀ a,
      (p ≠ .service → s.stepFive .charter p a bs = .error .foreign) ∧ s.stepFive .charter .service a bs = .ok .forward ∧
        s.stepFive .retained p a bs = .ok .merge ∧ s.stepFive .retainedPlain p a bs = .ok .forward ∧
        s.stepFive .default p a bs = .ok .forward)

/-- CLOCK_SET accepted, no held write waiting for the lock where a timetable is enabled: the clock is SET to the time, its mirror
is written and CLOCK_SET is reported with the port and the minute; an enabled timetable has the slot of that time current and
its level in force, a change of which has its announcement. A slot entered so takes its claim, preset, light request and
warning state, with its SLOT_START report; one left makes its SLOT_END report, and for a gap withdraws its claim, ends its
warning and starts its grace; the warning of a slot that goes on follows the time; in a gap the next entry is prewarmed where
its lead is reached. The model's choice: log 1, 2, 17. -/
def Obligations.ClockSetJudgesTheTimetable : Prop :=
  ∀ (p : Port) (w w' : Word) (time : Nat) (s : State),
    s.sup.applies p (s.sup.place .clock 0) [w, w'] (.absorb (.clock time)) →
    (s.sup.sched.state = .enabled → s.sup.noneWaits .lock) →
    ∃ t, exec (.clockSet p w w') s = .next t ∧ s.takesRecord t p (s.sup.place .clock 0) ∧ s.sup.keepsOthers t.sup p ∧
      s.sup.keepsBase t.sup ∧ s.sup.keepsRing t.sup ∧ t.sup.admission = s.sup.admission ∧
      t.sup.room = { timeOfWeek := time, isSet := true, uptime := s.sup.room.uptime } ∧
      s.sup.reportsNext t.sup [s.sup.reportOf .clockSet p.code (word (time / 60))] ∧ s.sup.levelFollows t.sup ∧
      (s.sup.sched.state ≠ .enabled →
        t.sup.sched = s.sup.sched ∧ t.sup.lock = s.sup.lock ∧ s.sup.keepsLamps t.sup ∧ s.sup.keepsPicture t.sup ∧
          t.sup.geo = s.sup.geo ∧ t.sup.notice = s.sup.notice) ∧
      (s.sup.sched.state = .enabled →
        t.sup.sched.state = .enabled ∧ t.sup.sched.loaded = s.sup.sched.loaded ∧
          t.sup.sched.current = s.sup.sched.loaded.findIdx? (fun e => e.startMinute ≤ time / 60 && time / 60 < e.endMinute) ∧
          t.sup.lock.schedule = t.sup.slotLevel ∧ (s.lockLaw → t.lockLaw)) ∧
      (s.mapLaw → s.sup.charter.isSome = true →
        t.sup.queued (s.sup.place .clock 0) (word (time / 3600 % 24 * 256 + time / 86400)) ∧
          t.sup.queued (s.sup.place .clock 1) (word (time % 60 * 256 + time / 60 % 60))) ∧
      (s.sup.sched.state = .enabled →
        let minute := time / 60
        let slot := s.sup.sched.loaded.findIdx? fun e => e.startMinute ≤ minute && minute < e.endMinute
        let now := s.sup.room.uptime;
        (∀ i e, slot = some i → s.sup.sched.loaded[i]? = some e → s.sup.sched.current ≠ some i →
          t.sup.source.claims.get .schedule = { word := e.claim, time := now } ∧ t.sup.resolved ∧
            s.sup.reportsAlso t.sup (s.sup.reportOf .slotStart i 1) ∧ t.sup.sched.grace = none ∧
            (t.sup.sched.warned = true ↔ e.warnsBy minute) ∧
            t.sup.lamp.demand = s.sup.lamp.demand.askedBy e now ∧
            (e.preset = 0 → t.sup.geo.trim = s.sup.geo.trim) ∧
            (e.preset ≠ 0 → t.sup.geo.trim = s.sup.geoParams.presets.getD (e.preset - 1) (.all 0))) ∧
        (∀ i e, slot = some i → s.sup.sched.loaded[i]? = some e → s.sup.sched.current = some i →
          t.sup.source.claims = s.sup.source.claims ∧ t.sup.sched.grace = s.sup.sched.grace ∧
            (t.sup.sched.warned = true ↔ e.warnsBy minute) ∧ t.sup.lamp.demand = s.sup.lamp.demand ∧
            t.sup.geo.trim = s.sup.geo.trim) ∧
        (∀ i, s.sup.sched.current = some i → slot ≠ some i → s.sup.reportsAlso t.sup (s.sup.reportOf .slotEnd i 1)) ∧
        (∀ i e, slot = none → s.sup.sched.current = some i → s.sup.sched.loaded[i]? = some e →
          (t.sup.source.claims.get .schedule).word = .withdraw ∧ t.sup.resolved ∧ t.sup.sched.warned = false ∧
            t.sup.geo.trim = s.sup.geo.trim ∧
            t.sup.sched.grace =
              (if e.grace then
                some { slotEnd := now, endUptime := now + BitVec.ofNat 32 (s.sup.chart.graceMinutes * 60) }
              else s.sup.sched.grace)) ∧
        (slot = none → s.sup.sched.current = none →
          t.sup.source.claims = s.sup.source.claims ∧ t.sup.sched.grace = s.sup.sched.grace ∧
            t.sup.geo.trim = s.sup.geo.trim) ∧
        (∀ e, slot = none → s.sup.nextToStart e minute →
          let due := ∃ m, s.sup.prewarmsAt e m ∧ (e.startMinute + 10080 - minute) % 10080 ≤ (e.startMinute + 10080 - m) % 10080;
          (due → t.sup.lamp.demand = s.sup.lamp.demand.askedBy e now) ∧ (¬due → t.sup.lamp.demand = s.sup.lamp.demand)))

/-- A SCHEDULE header with enable ON accepted while DISABLED begins the load of its entries, or with none is ENABLED at once; while
LOADING or ENABLED it changes nothing. One with enable OFF only takes the count while DISABLED; otherwise the slot ends without
grace, with its SLOT_END report, grace and load are given up, and the schedule hands OPEN. A change of the lock level has its
announcement. The model's choice: log 1, 8, 17, 32. -/
def Obligations.HeaderEnablesAndDisables : Prop :=
  (∀ (c : Instr) (p : Port) (w : Word) (n : Nat) (s : State), s.sup.writeOf c = some (p, scheduleBase, [w]) →
    s.sup.applies p scheduleBase [w] (.absorb (.header n true)) → s.sup.noneWaits .lock →
    ∃ t, exec c s = .next t ∧ s.takesRecord t p scheduleBase ∧ s.sup.keepsOthers t.sup p ∧ s.sup.keepsBase t.sup ∧
      s.sup.keepsRing t.sup ∧ t.sup.room = s.sup.room ∧ t.sup.admission = s.sup.admission ∧
      (s.sup.sched.state = .disabled → n ≠ 0 →
        t.sup.sched =
            { s.sup.sched with count := n, enable := true, state := .loading, load := some s.sup.mp.nextRead } ∧
          { number := s.sup.mp.nextRead, reader := .entries, start := 0x3E010, length := 8 * n, words := [] } ∈
            t.sup.mp.reads ∧
          t.sup.lock = s.sup.lock ∧ s.sup.keepsLamps t.sup ∧ s.sup.keepsPicture t.sup ∧ t.sup.geo = s.sup.geo) ∧
      (s.sup.sched.state = .disabled → n = 0 →
        t.sup.sched.count = 0 ∧ t.sup.sched.enable = true ∧ t.sup.sched.state = .enabled ∧ t.sup.sched.loaded = []) ∧
      (s.sup.sched.state ≠ .disabled →
        t.sup.sched = s.sup.sched ∧ t.sup.lock = s.sup.lock ∧ s.sup.keepsLamps t.sup ∧ s.sup.keepsPicture t.sup ∧
          t.sup.geo = s.sup.geo) ∧
      s.sup.levelFollows t.sup) ∧
  (∀ (c : Instr) (p : Port) (w : Word) (n : Nat) (s : State), s.sup.writeOf c = some (p, scheduleBase, [w]) →
    s.sup.applies p scheduleBase [w] (.absorb (.header n false)) → s.sup.noneWaits .lock →
    ∃ t, exec c s = .next t ∧ s.takesRecord t p scheduleBase ∧ s.sup.keepsOthers t.sup p ∧ s.sup.keepsBase t.sup ∧
      s.sup.keepsRing t.sup ∧ t.sup.room = s.sup.room ∧ s.sup.keepsLamps t.sup ∧ t.sup.geo = s.sup.geo ∧
      t.sup.admission = s.sup.admission ∧
      t.sup.sched.count = n ∧ t.sup.sched.enable = false ∧ t.sup.sched.state = .disabled ∧
      t.sup.sched.loaded = s.sup.sched.loaded ∧
      (s.sup.sched.state = .disabled →
        t.sup.sched = { s.sup.sched with count := n, enable := false } ∧ t.sup.lock = s.sup.lock ∧
          s.sup.keepsPicture t.sup) ∧
      (s.sup.sched.state ≠ .disabled →
        t.sup.sched.current = none ∧ t.sup.sched.grace = none ∧ t.sup.sched.load = none ∧
          t.sup.lock.schedule = .unlocked ∧
          (s.sup.sched.current.isSome = true →
            (t.sup.source.claims.get .schedule).word = .withdraw ∧ t.sup.resolved)) ∧
      (∀ i, s.sup.sched.state ≠ .disabled → s.sup.sched.current = some i →
        s.sup.reportsAlso t.sup (s.sup.reportOf .slotEnd i 2)) ∧
      s.sup.levelFollows t.sup)

/-- PORT_RELEASE accepted: the port named is NORMAL with fault count 0; a quarantined one also loses its consecutive-WAIT count and
is reported RELEASED, and of another no report is made. No other port changes but the writer's, which is answered.
The model's choice: log 1, 2, 16. -/
def Obligations.PortReleaseEndsQuarantine : Prop :=
  ∀ (p q : Port) (w : Word) (s : State), s.sup.applies p (s.sup.place .service 0) [w] (.absorb (.portRelease q)) →
    ∃ t, exec (.portRelease p w) s = .next t ∧ s.takesRecord t p (s.sup.place .service 0) ∧ s.sup.keepsBlocks t.sup ∧
      t.sup.admission = s.sup.admission ∧ t.sup.ring.attention = s.sup.ring.attention ∧
      (t.sup.port q).quarantined = false ∧ (t.sup.port q).faults = 0 ∧
      (q ≠ p → (t.sup.port q).collection = (s.sup.port q).collection ∧ (t.sup.port q).timer = (s.sup.port q).timer ∧
        (t.sup.port q).waits = if (s.sup.port q).quarantined then 0 else (s.sup.port q).waits) ∧
      (∀ r, r ≠ p → r ≠ q → t.sup.port r = s.sup.port r) ∧
      (if (s.sup.port q).quarantined then ∃ d, s.sup.reportsOnly t.sup [s.sup.reportOf .released q.code d]
      else s.sup.makesNoReport t.sup)

/-- A service takeover: START makes it active for the takeover timeout from now, at level SERVICE; END and the timer's expiry make
it inactive, at the highest of the other two contributions. An END with none active changes nothing. Once for all, a
contribution that has changed: the level becomes the highest; the same level only queues the LOCK word; a new level is reported
LOCK_CHANGED before its release, and with no write to release the LOCK word is queued, the resolver resolves, and the cause
EXAM_LOCK or SERVICE_TAKEOVER of the level left is ended and that of the new level raised.
The model's choice: log 1, 2, 4, 6. -/
def Obligations.TakeoverStartsAndEnds : Prop :=
  (∀ (p : Port) (s : State), s.sup.applies p (s.sup.place .service 1) [1] (.absorb .takeoverStart) →
    s.sup.noneWaits .lock →
    ∃ t, exec (.takeoverStart p) s = .next t ∧ s.takesRecord t p (s.sup.place .service 1) ∧ s.sup.keepsOthers t.sup p ∧
      s.sup.keepsBase t.sup ∧ s.sup.keepsLamps t.sup ∧ s.sup.keepsRoom t.sup ∧ s.sup.keepsRing t.sup ∧
      t.sup.geo = s.sup.geo ∧ t.sup.source.claims = s.sup.source.claims ∧
      t.sup.lock.takeover = some (s.sup.after (periodsOfSeconds (s.sup.chart.takeoverMinutes * 60))) ∧
      t.sup.lock.key = s.sup.lock.key ∧ t.sup.lock.schedule = s.sup.lock.schedule ∧
      t.sup.lock.keyInterval = s.sup.lock.keyInterval ∧
      (s.sup.lock.takeover.isSome = true → t.sup.lock.level = s.sup.lock.level ∧ s.sup.keepsPicture t.sup) ∧
      (s.sup.lock.takeover = none → t.sup.lock.level = .service) ∧ s.sup.levelFollows t.sup) ∧
  (∀ (p : Port) (s : State), s.sup.applies p (s.sup.place .service 1) [2] (.absorb .takeoverEnd) → s.sup.noneWaits .lock →
    ∃ t, exec (.takeoverEnd p) s = .next t ∧ s.takesRecord t p (s.sup.place .service 1) ∧ s.sup.keepsOthers t.sup p ∧
      s.sup.keepsBase t.sup ∧ s.sup.keepsLamps t.sup ∧ s.sup.keepsRoom t.sup ∧ s.sup.keepsRing t.sup ∧
      t.sup.geo = s.sup.geo ∧ t.sup.source.claims = s.sup.source.claims ∧
      (s.sup.lock.takeover = none → t.sup.lock = s.sup.lock ∧ s.sup.keepsPicture t.sup) ∧
      (s.sup.lock.takeover.isSome = true →
        t.sup.lock =
          { s.sup.lock with takeover := none, level := s.sup.lock.schedule.max s.sup.lock.keyContribution }) ∧
      s.sup.levelFollows t.sup) ∧
  (∀ (s : State) (e : Nat), s.sup.lock.takeover = some e → s.sup.noneWaits .lock →
    ∃ t, exec .takeoverExpiry s = .next t ∧ s.keepsMemory t ∧ s.sup.keepsPorts t.sup ∧ t.sup.hold = s.sup.hold ∧
      s.sup.keepsBase t.sup ∧ s.sup.keepsLamps t.sup ∧ s.sup.keepsRoom t.sup ∧ s.sup.keepsRing t.sup ∧
      t.sup.geo = s.sup.geo ∧ t.sup.source.claims = s.sup.source.claims ∧
      t.sup.time.crystal = max s.sup.time.crystal e ∧
      t.sup.lock =
        { s.sup.lock with takeover := none, level := s.sup.lock.schedule.max s.sup.lock.keyContribution } ∧
      s.sup.levelFollows t.sup) ∧
  (∀ (u : Sup),
    let v := u.recompute Sup.levelRelease
    let highest := u.lock.highest;
    (highest = u.lock.level → v = u.queueStatus 17) ∧
      (highest ≠ u.lock.level →
        u.reportsNext v [u.reportOf .lockChanged highest.code (word u.lock.level.code)] ∧
          (u.noneWaits .lock → v.lock = { u.lock with level := highest } ∧ u.levelFollows v)))

/-- LAMP_CLEAR and LAMP_REPLACE accepted: the lamp's attempts are 0 and its mark is gone, CLEARED is reported with the state left
and REPLACED with the tag; LAMP_FAILED ends where neither lamp is FAILED now, and at a replacement LAMP_WORN where both are
FRESH. With the demand OFF a failed lamp cleared is DARK, a cooling one goes on cooling, and a replaced one is DARK with counts
of 0 and its new tag. The other lamp stands then. With the demand ON the strike decision that follows is made with the lamp so
mended, and NO_LAMP is judged. The model's choice: log 1, 2, 6, 7, 23, 46. -/
def Obligations.ServiceRecordsMendALamp : Prop :=
  (∀ (p : Port) (w : Word) (l : Lamp) (s : State),
    s.sup.applies p (s.sup.place .service 4) [w] (.absorb (.lampClear l)) →
    ∃ t, exec (.lampClear p w) s = .next t ∧ s.takesRecord t p (s.sup.place .service 4) ∧ s.sup.keepsOthers t.sup p ∧
      s.sup.keepsBase t.sup ∧ s.sup.keepsPicture t.sup ∧ s.sup.keepsRoom t.sup ∧ s.sup.keepsRing t.sup ∧
      t.sup.lock = s.sup.lock ∧ t.sup.geo = s.sup.geo ∧ t.sup.lamp.demand = s.sup.lamp.demand ∧
      (t.sup.lamp.lamps.get l).attempts = 0 ∧ (s.lampLaw → (t.sup.lamp.lamps.get l).marked = false) ∧
      s.sup.reportsNext t.sup [s.sup.reportOf .cleared l.code (word (s.sup.lamp.lamps.get l).state.code)] ∧
      ((s.sup.lamp.lamps.get l).state = .failed → (s.sup.lamp.lamps.get l.other).state ≠ .failed → ¬t.sup.raised .lampFailed) ∧
      (s.sup.lamp.demand.level = .off →
        (t.sup.lamp.lamps.get l).state =
            (if (s.sup.lamp.lamps.get l).state = .failed then .dark else (s.sup.lamp.lamps.get l).state) ∧
          t.sup.lamp.lamps.get l.other = s.sup.lamp.lamps.get l.other) ∧
      (s.lampLaw →
        let c := s.sup.lamp.lamps.get l
        let mended : LampCell :=
          { c with state := if c.state = .failed then .dark else c.state, attempts := 0, marked := false };
        { s.sup with lamp := { s.sup.lamp with lamps := s.sup.lamp.lamps.set l mended } }.decided t.sup)) ∧
  (∀ (p : Port) (w tag : Word) (l : Lamp) (s : State),
    s.sup.applies p (s.sup.place .service 2) [w, tag] (.absorb (.lampReplace l tag)) →
    ∃ t, exec (.lampReplace p w tag) s = .next t ∧ s.takesRecord t p (s.sup.place .service 2) ∧
      s.sup.keepsOthers t.sup p ∧ s.sup.keepsBase t.sup ∧ s.sup.keepsPicture t.sup ∧ s.sup.keepsRoom t.sup ∧
      s.sup.keepsRing t.sup ∧ t.sup.lock = s.sup.lock ∧ t.sup.geo = s.sup.geo ∧
      t.sup.lamp.demand = s.sup.lamp.demand ∧ (t.sup.lamp.lamps.get l).attempts = 0 ∧
      (t.sup.lamp.lamps.get l).marked = false ∧ (t.sup.lamp.lamps.get l).recordValid = true ∧
      (t.sup.wear.lamps.get l).tag = tag ∧ (t.sup.wear.lamps.get l).loaded = true ∧
      s.sup.reportsNext t.sup [s.sup.reportOf .replaced l.code tag] ∧
      ((s.sup.lamp.lamps.get l.other).state ≠ .failed → ¬t.sup.raised .lampFailed) ∧
      ((∀ m, (t.sup.wear.lamps.get m).stage = .fresh) → ¬t.sup.raised .lampWorn) ∧
      (s.sup.lamp.demand.level = .off →
        (t.sup.lamp.lamps.get l).state = .dark ∧ (t.sup.wear.lamps.get l).wear = 0 ∧
          (t.sup.wear.lamps.get l).litSeconds = 0 ∧ (t.sup.wear.lamps.get l).strikes = 0 ∧
          (t.sup.wear.lamps.get l).strikeFailures = 0 ∧ (t.sup.wear.lamps.get l).dropouts = 0 ∧
          (t.sup.wear.lamps.get l).stage = .fresh ∧ (t.sup.wear.lamps.get l).flushCount = 0 ∧
          t.sup.lamp.lamps.get l.other = s.sup.lamp.lamps.get l.other ∧
          t.sup.wear.lamps.get l.other = s.sup.wear.lamps.get l.other) ∧
      (let mended : LampCell :=
          { s.sup.lamp.lamps.get l with state := .dark, attempts := 0, marked := false, recordValid := true }
        let fresh : WearCell := { WearCell.reset with tag := tag, loaded := true };
        { s.sup with
          lamp := { s.sup.lamp with lamps := s.sup.lamp.lamps.set l mended }
          wear := { s.sup.wear with lamps := s.sup.wear.lamps.set l fresh } }.decided t.sup))

/-- CHARTER_RELOAD accepted: admission is STALLED and the charter region's 1024 words are asked for; the charter in force stands.
CHARTER_RELOAD_READ_DONE ends it: a valid charter is put in force, the hold table torn down with a TORN report for each entry,
the trim kept if its target passes the new order check, the ring restarted if its place changed, and each port at the new fault
limit quarantined, with its report; the life stages are judged by the new hours, a strike decision is made by the new lamp
group, OVERLAY follows, the CHARTER word and the report CHARTER_LOADED are queued, and so are the words of each window that has
moved. An invalid one leaves the charter in force with the cause SETUP and the report RELOAD_FAIL of the check that failed.
Either way admission is OPEN. The model's choice: log 1, 2, 6, 7, 8, 16, 28, 46. -/
def Obligations.CharterReloadStallsAndEnds : Prop :=
  (∀ (p : Port) (w : Word) (s : State), s.sup.applies p (s.sup.place .service 5) [w] (.absorb .charterReload) →
    ∃ t, exec (.charterReload p w) s = .next t ∧ s.takesRecord t p (s.sup.place .service 5) ∧ s.sup.keepsOthers t.sup p ∧
      t.sup.admission = .stalled ∧ t.sup.reloading = true ∧
      { number := s.sup.mp.nextRead, reader := .charterReload, start := 0x3F000, length := 1024, words := [] } ∈ t.sup.mp.reads ∧
      t.sup.charter = s.sup.charter ∧ t.sup.isFallback = s.sup.isFallback ∧ t.sup.lines = s.sup.lines ∧
      t.sup.startUp = s.sup.startUp ∧ s.sup.keepsLamps t.sup ∧ s.sup.keepsPicture t.sup ∧ s.sup.keepsRoom t.sup ∧
      s.sup.keepsRing t.sup ∧ t.sup.lock = s.sup.lock ∧ t.sup.notice = s.sup.notice ∧ t.sup.geo = s.sup.geo) ∧
  (∀ (s : State), s.sup.reloading = true →
    ∃ t, exec .charterReloadReadDone s = .next t ∧ s.keepsMemory t ∧ t.sup.admission = .admitting ∧
      t.sup.reloading = false ∧ t.sup.lock = s.sup.lock ∧ t.sup.lines = s.sup.lines ∧ t.sup.startUp = s.sup.startUp ∧
      s.sup.keepsRoom t.sup ∧
      (let rs := (s.sup.readsOf .charterReload).flatMap fun r => r.finish s.mem;
        (∀ ch, judgeCharter rs = .ok ch →
          t.sup.charter = some ch ∧ t.sup.isFallback = false ∧ t.sup.hold.entries = [] ∧ t.sup.resolved ∧
            s.sup.reportsNext t.sup (s.sup.tornReports fun _ => true) ∧
            (∀ p, (s.sup.port p).quarantined = false → (t.sup.port p).quarantined = true →
              (∃ d, s.sup.reportsAlso t.sup (s.sup.reportOf .quarantined p.code d)) ∧ t.sup.ring.attention.port = true) ∧
            t.sup.geo.trim = (if orderOk ch.geometry (targetOf ch.geometry s.sup.geo.trim) then s.sup.geo.trim else .all 0) ∧
            t.sup.geo.target = targetOf ch.geometry t.sup.geo.trim ∧
            t.sup.geo.live = clampCorners ch.geometry s.sup.geo.live ∧
            t.sup.geo.slewing = (t.sup.geo.live != t.sup.geo.target) ∧
            (if ch.ring.base = s.sup.chart.ring.base ∧ ch.ring.count = s.sup.chart.ring.count then
              s.sup.keepsRing t.sup
            else t.sup.ring.head = 0 ∧ t.sup.ring.tail = 0 ∧ t.sup.ring.unread = []) ∧
            (∀ p, (t.sup.port p).quarantined =
              ((s.sup.port p).quarantined || (ch.port.isolation && decide (ch.port.faultLimit ≤ (s.sup.port p).faults)))) ∧
            t.sup.notice.overlay = t.sup.overlayValue ∧ t.sup.lamp.demand = s.sup.lamp.demand ∧ t.sup.noLampExact ∧
            (∀ l, (t.sup.wear.lamps.get l).stage.code =
              max (s.sup.wear.lamps.get l).stage.code (stageOf ch.lamp (t.sup.wear.lamps.get l).wear).code) ∧
            ((∀ l, (stageOf ch.lamp (s.sup.wear.lamps.get l).wear).code ≤ (s.sup.wear.lamps.get l).stage.code) →
              { s.sup with
                charter := some ch
                lamp :=
                  { s.sup.lamp with
                    duty := if ch.lamp.dual = s.sup.chart.lamp.dual then s.sup.lamp.duty else none } }.decided t.sup) ∧
            (t.sup.ringFull = false → t.sup.mp.reports.length < 16 →
              t.sup.mp.reports.getLast? =
                some
                  (s.sup.reportOf .charterLoaded (ch.version.toNat / 256)
                    (word
                      (ch.version.toNat % 256 * 256 +
                        if orderOk ch.geometry (targetOf ch.geometry s.sup.geo.trim) then 1 else 129)))) ∧
            t.sup.queued (t.sup.place .status 24) (t.sup.statusWord 24) ∧
            (let moved := fun c => t.sup.place c 0 ≠ s.sup.place c 0;
              (moved .light → t.sup.queued (t.sup.place .light 0) (word t.sup.lamp.demand.level.code)) ∧
              (moved .claim →
                ∀ k : Claimant, t.sup.queued (t.sup.place .claim k.code) (t.sup.source.claims.get k).word.encode) ∧
              (moved .mute → t.sup.queued (t.sup.place .mute 0) (word t.sup.source.requestedMute.code)) ∧
              (moved .geometry →
                ∀ i, i < 8 → t.sup.queued (t.sup.place .geometry i) (coordWord (t.sup.geo.trim.at i))) ∧
              (moved .clock →
                let time := t.sup.room.timeOfWeek
                t.sup.queued (t.sup.place .clock 0) (word (time / 3600 % 24 * 256 + time / 86400)) ∧
                  t.sup.queued (t.sup.place .clock 1) (word (time % 60 * 256 + time / 60 % 60))) ∧
              (moved .status → ∀ o, o < 32 → t.sup.queued (t.sup.place .status o) (t.sup.statusWord o)))) ∧
        (∀ f, judgeCharter rs = .error f →
          t.sup.charter = s.sup.charter ∧ t.sup.isFallback = s.sup.isFallback ∧ t.sup.hold = s.sup.hold ∧
            t.sup.ring.attention.setup = true ∧
            s.sup.reportsOnly t.sup
              [s.sup.reportOf .reloadFail (s.sup.chart.version.toNat / 256)
                (word (s.sup.chart.version.toNat % 256 * 256 + f.number))] ∧
            s.sup.keepsLamps t.sup ∧ s.sup.keepsPicture t.sup ∧ s.sup.keepsRing t.sup ∧ s.sup.keepsPorts t.sup ∧
            t.sup.geo = s.sup.geo ∧ t.sup.notice = s.sup.notice)))

/-! ### Lines and timers -/

/-- KEY: an edge away from the debounced state starts a 50 ms interval and an edge back abandons it; at the interval's end the
debounced state takes the line's value and the level is the highest contribution, a change of which has its announcement.
SIGNAL: an edge away from the debounced state starts a settle interval and an edge back abandons it; at the interval's end the
state takes the line's value and the resolver resolves. Every other input stands. The model's choice: log 4, 6, 15, 39. -/
def Obligations.KeyAndSignalsAreDebounced : Prop :=
  (∀ (on : Bool) (s : State),
    ∃ t, exec (.keyEdge on) s = .next t ∧ s.keepsMemory t ∧ s.sup.keepsPorts t.sup ∧ s.sup.keepsClock t.sup ∧
      t.sup.hold = s.sup.hold ∧ s.sup.keepsLamps t.sup ∧ s.sup.keepsPicture t.sup ∧ s.sup.keepsRoom t.sup ∧
      s.sup.keepsRing t.sup ∧ t.sup.notice = s.sup.notice ∧ t.sup.geo = s.sup.geo ∧
      t.sup.charter = s.sup.charter ∧ t.sup.startUp = s.sup.startUp ∧ t.sup.lines = { s.sup.lines with key := on } ∧
      t.sup.lock =
        { s.sup.lock with
          keyInterval :=
            if on = s.sup.lines.key then s.sup.lock.keyInterval
            else if on = s.sup.lock.key then none
            else some (s.sup.time.crystal + 1639) }) ∧
  (∀ (s : State) (e : Nat), s.sup.lock.keyInterval = some e → s.sup.noneWaits .lock →
    ∃ t, exec .keyDebounceExpiry s = .next t ∧ s.keepsMemory t ∧ s.sup.keepsPorts t.sup ∧ t.sup.hold = s.sup.hold ∧
      s.sup.keepsBase t.sup ∧ s.sup.keepsLamps t.sup ∧ s.sup.keepsRoom t.sup ∧ s.sup.keepsRing t.sup ∧
      t.sup.geo = s.sup.geo ∧ t.sup.source.claims = s.sup.source.claims ∧
      t.sup.time.crystal = max s.sup.time.crystal e ∧ t.sup.lock.key = s.sup.lines.key ∧
      t.sup.lock.keyInterval = none ∧ t.sup.lock.schedule = s.sup.lock.schedule ∧
      t.sup.lock.takeover = s.sup.lock.takeover ∧ t.sup.lock.level = t.sup.lock.highest ∧ s.sup.levelFollows t.sup) ∧
  (∀ (i : Fin 8) (v : Bool) (s : State), s.inputLaw →
    ∃ t, exec (.signalEdge i v) s = .next t ∧ s.keepsMemory t ∧ s.sup.keepsPorts t.sup ∧ s.sup.keepsClock t.sup ∧
      t.sup.hold = s.sup.hold ∧ s.sup.keepsBase t.sup ∧ s.sup.keepsLamps t.sup ∧ s.sup.keepsRoom t.sup ∧
      s.sup.keepsRing t.sup ∧ t.sup.lock = s.sup.lock ∧ t.sup.notice = s.sup.notice ∧ t.sup.geo = s.sup.geo ∧
      t.sup.seq = s.sup.seq ∧ t.sup.source.claims = s.sup.source.claims ∧ t.sup.source.winner = s.sup.source.winner ∧
      t.sup.source.target = s.sup.source.target ∧ (∀ j, j ≠ i → t.sup.signal j = s.sup.signal j) ∧
      (t.sup.signal i).line = v ∧ (t.sup.signal i).present = (s.sup.signal i).present ∧
      (v = (s.sup.signal i).line → t.sup.signal i = s.sup.signal i) ∧
      (v ≠ (s.sup.signal i).line → v = (s.sup.signal i).present → (t.sup.signal i).interval = none) ∧
      (∀ ch, v ≠ (s.sup.signal i).line → v ≠ (s.sup.signal i).present → s.sup.charter = some ch →
        (t.sup.signal i).interval = some (s.sup.after (periodsOfHalves ch.settleHalves))) ∧
      (v ≠ (s.sup.signal i).line → v ≠ (s.sup.signal i).present → s.sup.charter = none →
        ∃ h, 1 ≤ h ∧ h ≤ 16 ∧ (t.sup.signal i).interval = some (s.sup.after (periodsOfHalves h)))) ∧
  (∀ (i : Fin 8) (s : State) (e : Nat), s.inputLaw → (s.sup.signal i).interval = some e →
    ∃ t, exec (.signalDebounceExpiry i) s = .next t ∧ s.keepsMemory t ∧ s.sup.keepsPorts t.sup ∧
      t.sup.hold = s.sup.hold ∧ s.sup.keepsBase t.sup ∧ s.sup.keepsLamps t.sup ∧ s.sup.keepsRoom t.sup ∧
      s.sup.keepsRing t.sup ∧ t.sup.lock = s.sup.lock ∧ t.sup.geo = s.sup.geo ∧
      t.sup.source.claims = s.sup.source.claims ∧ t.sup.time.crystal = max s.sup.time.crystal e ∧
      (∀ j, j ≠ i → t.sup.signal j = s.sup.signal j) ∧
      t.sup.signal i = { line := (s.sup.signal i).line, present := (s.sup.signal i).line, interval := none } ∧
      t.sup.resolved)

/-- What ends by the uptime. HOLD_EXPIRY: an entry that has reached the age limit is removed with an EXPIRED report of its port, window
and sequence number; an entry that has not stays. GRACE_EXPIRY of a running grace that is over: it stops, and the demand goes OFF
unless it was set after the slot ended; one that is not over goes on. The model's choice: log 30, 31, 47. -/
def Obligations.AgedEntryAndGraceExpire : Prop :=
  (∀ (q : Word) (e : HoldEntry) (s : State), s.sup.entryOf q = some e →
    ∃ t, exec (.holdExpiry q) s = .next t ∧ s.keepsMemory t ∧ s.sup.keepsPorts t.sup ∧ s.sup.keepsClock t.sup ∧
      s.sup.keepsBlocks t.sup ∧ t.sup.ring.attention = s.sup.ring.attention ∧
      (let aged := s.sup.chart.holdMinutes ≠ 0 ∧
          s.sup.chart.holdMinutes * 60 ≤ (s.sup.room.uptime - e.time).toNat;
        (¬aged → t.sup.hold = s.sup.hold ∧ s.sup.makesNoReport t.sup) ∧
        (aged →
          t.sup.hold.entries = s.sup.hold.entries.filter (fun d => d.sequence != q) ∧
            t.sup.hold.counter = s.sup.hold.counter ∧
            s.sup.reportsOnly t.sup [s.sup.reportOf .expired (e.port.code * 64 + e.window) q]))) ∧
  (∀ (s : State) (g : Grace), s.sup.sched.grace = some g →
    ∃ t, exec .graceExpiry s = .next t ∧ s.keepsMemory t ∧ s.sup.keepsPorts t.sup ∧ s.sup.keepsClock t.sup ∧
      t.sup.hold = s.sup.hold ∧ s.sup.keepsBase t.sup ∧ s.sup.keepsPicture t.sup ∧ s.sup.keepsRing t.sup ∧
      t.sup.room = s.sup.room ∧ t.sup.lock = s.sup.lock ∧ t.sup.geo = s.sup.geo ∧
      (let ended := (g.endUptime - g.slotEnd).toNat ≤ (s.sup.room.uptime - g.slotEnd).toNat;
        (¬ended → t.sup.sched = s.sup.sched ∧ s.sup.keepsLamps t.sup) ∧
        (ended → t.sup.sched = { s.sup.sched with grace := none }) ∧
        (ended → g.slotEnd.toNat < s.sup.lamp.demand.setTime.toNat → s.sup.keepsLamps t.sup) ∧
        (ended → s.sup.lamp.demand.setTime.toNat ≤ g.slotEnd.toNat →
          t.sup.lamp.demand = { level := .off, setTime := s.sup.room.uptime })))

/-- The release of held writes. An announced level releases the LOCK entries its permit set admits, and a lamp's entry into LIT
the LIT entries, one by one in sequence order; an entry found gone, or made again meanwhile, is passed over. An entry released is
classified again: it is forwarded to the end of the release queue, absorbed or merged as a write of now, held again as a new
entry, or refused with RELEASE_DENIED; the port gets no response. After the end of a key debounce that changes the level, and
after a warm-up, no entry of the set is left. The model's choice: log 19, 52. -/
def Obligations.ReleaseReclassifiesAHeldWrite : Prop :=
  (∀ s : Sup,
    (∃ nested, s.levelRelease =
      ((s.hold.entries.filter fun e => e.condition == .lock && (s.chart.permit.at s.lock.level).get e.port).map
        (·.serial)).foldl (Sup.releaseEntry nested) s) ∧
    (∃ nested, s.litRelease =
      ((s.hold.entries.filter fun e => e.condition == .lit).map (·.serial)).foldl (Sup.releaseEntry nested) s)) ∧
  (∀ (nested : Sup → Sup) (n : Nat) (s : Sup), (∀ e ∈ s.hold.entries, e.serial ≠ n) → s.releaseEntry nested n = s) ∧
  (∀ (nested : Sup → Sup) (n : Nat) (e : HoldEntry) (s : Sup), s.entryMade n = some e →
    let t := s.releaseEntry nested n
    let left := s.hold.entries.filter fun d => d.sequence != e.sequence
    let stands := s.keepsBlocks t ∧ s.keepsClock t ∧ s.keepsPorts t ∧ t.ring.attention = s.ring.attention;
    (∀ r, s.classify e.port e.start e.data = .denied r →
      stands ∧ t.hold.entries = left ∧ t.hold.counter = s.hold.counter ∧ t.mp.releases = s.mp.releases ∧
        (s.mp.reports.length < 16 →
          t.mp.reports =
            s.mp.reports ++
              [{ kind := .releaseDenied, subject := e.port.code * 64 + e.window, uptime := s.room.uptime, detail := word r.code }])) ∧
    (∀ c w, s.classify e.port e.start e.data = .offered c w →
      stands ∧ t.mp.releases = s.mp.releases ∧ t.mp.reports = s.mp.reports ∧
        t.hold.entries =
          left ++
            [{ e with
              window := w, condition := c, time := s.room.uptime, sequence := s.hold.counter, serial := s.hold.made }]) ∧
    (s.classify e.port e.start e.data = .applied .forward →
      stands ∧ t.hold.entries = left ∧ t.mp.reports = s.mp.reports ∧
        t.mp.releases = s.mp.releases ++ [{ port := e.port, start := e.start, data := e.data }]) ∧
    (s.classify e.port e.start e.data = .applied .merge →
      t.hold.entries = left ∧ t.mp.releases = s.mp.releases ∧ s.keepsPorts t ∧
        (∀ o, o < 32 → o ≠ 16 → e.start = s.place .status o → e.start < Config.retainedBase → s.charter.isSome = true →
          stands ∧ (e.start, t.statusWord o) ∈ t.mp.control)) ∧
    (∀ act, s.classify e.port e.start e.data = .applied (.absorb act) →
      (∀ v, act = .light v → t.lamp.demand = { level := v, setTime := s.room.uptime }) ∧
      (∀ q c, act = .claim q c →
        t.source.claims = s.source.claims.set q.claimant { word := c, time := s.room.uptime } ∧ t.resolved) ∧
      (∀ m, act = .mute m → t.source.requestedMute = m) ∧
      (∀ c, act = .trim c → t.geo.trim = c ∧ t.geo.target = targetOf s.geoParams c) ∧
      (∀ time, act = .clock time → s.sched.state ≠ .enabled →
        t.room = { timeOfWeek := time, isSet := true, uptime := s.room.uptime }) ∧
      (((∃ v, act = .light v) ∨ (∃ q c, act = .claim q c) ∨ (∃ m, act = .mute m) ∨ (∃ c, act = .trim c) ∨
          (s.sched.state ≠ .enabled ∧ ∃ time, act = .clock time)) →
        t.hold.entries = left ∧ t.mp.releases = s.mp.releases ∧ s.keepsPorts t))) ∧
  (∀ (s : State) (at? : Nat), s.sup.lock.keyInterval = some at? → s.serialLaw →
    ∃ t, exec .keyDebounceExpiry s = .next t ∧
      (let level := { s.sup.lock with key := s.sup.lines.key }.highest;
        level ≠ s.sup.lock.level →
          ∀ e ∈ s.sup.hold.entries, e.condition = .lock → (s.sup.chart.permit.at level).get e.port = true →
            ∀ d ∈ t.sup.hold.entries, d.serial ≠ e.serial)) ∧
  (∀ (l : Lamp) (s : State) (at? : Nat), (s.sup.lamp.lamps.get l).state = .warming →
    (s.sup.lamp.lamps.get l).timer = some at? → s.serialLaw →
    ∃ t, exec (.warmupExpiry l) s = .next t ∧
      ∀ e ∈ s.sup.hold.entries, e.condition = .lit → ∀ d ∈ t.sup.hold.entries, d.serial ≠ e.serial)

/-- LAMPOK asserted takes a striking lamp to WARMING with the warm-up timer; deasserted in WARMING or LIT it is a dropout; a strike
timer that runs out is a strike failure. Either failure cools the lamp with its attempts risen, is reported with the new count,
DROPOUT or STRIKE_FAIL, and is counted. Below the attempt limit the other lamp and the duty lamp stand; at the limit the lamp
is marked, in ALTERNATE mode the demand episode transfers from it to a lamp that can serve, and a strike decision is made.
NO_LAMP is judged. The model's choice: log 4, 6, 7, 39. -/
def Obligations.LampokAndStrikeTimerMoveTheLamp : Prop :=
  (∀ (l : Lamp) (s : State),
    ∃ t, exec (.lampokAssert l) s = .next t ∧ s.keepsMemory t ∧ s.sup.keepsPorts t.sup ∧ s.sup.keepsClock t.sup ∧
      t.sup.hold = s.sup.hold ∧ s.sup.keepsPicture t.sup ∧ s.sup.keepsRoom t.sup ∧ s.sup.keepsRing t.sup ∧
      t.sup.lock = s.sup.lock ∧ t.sup.notice = s.sup.notice ∧ t.sup.geo = s.sup.geo ∧ t.sup.wear = s.sup.wear ∧
      t.sup.charter = s.sup.charter ∧ t.sup.lines = { s.sup.lines with lampok := s.sup.lines.lampok.set l true } ∧
      t.sup.lamp =
        (if (s.sup.lamp.lamps.get l).state = .striking then
          { s.sup.lamp with
            lamps := s.sup.lamp.lamps.set l
              { s.sup.lamp.lamps.get l with
                state := .warming, timer := some (s.sup.after (periodsOfSeconds s.sup.chart.lamp.warmUp)) } }
        else s.sup.lamp)) ∧
  (∀ (l : Lamp) (s : State),
    ∃ t, exec (.lampokDeassert l) s = .next t ∧ s.keepsMemory t ∧ s.sup.keepsPorts t.sup ∧ s.sup.keepsClock t.sup ∧
      t.sup.hold = s.sup.hold ∧ s.sup.keepsPicture t.sup ∧ s.sup.keepsRoom t.sup ∧ s.sup.keepsRing t.sup ∧
      t.sup.lock = s.sup.lock ∧ t.sup.geo = s.sup.geo ∧ t.sup.charter = s.sup.charter ∧
      t.sup.lines = { s.sup.lines with lampok := s.sup.lines.lampok.set l false } ∧
      t.sup.lamp.demand = s.sup.lamp.demand ∧
      (if (s.sup.lamp.lamps.get l).state = .warming ∨ (s.sup.lamp.lamps.get l).state = .lit then
        t.sup.lamp.lamps.get l = failedAttempt s.sup l s.sup.time.crystal ∧
          s.sup.reportsNext t.sup
            [s.sup.reportOf .dropout l.code (word (min ((s.sup.lamp.lamps.get l).attempts + 1) 65535))] ∧
          s.sup.failsOver t.sup l s.sup.time.crystal ∧
          (t.sup.wear.lamps.get l).dropouts =
            (if (s.sup.wear.lamps.get l).loaded then min ((s.sup.wear.lamps.get l).dropouts + 1) 255
            else (s.sup.wear.lamps.get l).dropouts)
      else s.sup.keepsLamps t.sup ∧ t.sup.notice = s.sup.notice)) ∧
  (∀ (l : Lamp) (s : State) (e : Nat), (s.sup.lamp.lamps.get l).state = .striking → (s.sup.lamp.lamps.get l).timer = some e →
    ∃ t, exec (.strikeTimeout l) s = .next t ∧ s.keepsMemory t ∧ s.sup.keepsPorts t.sup ∧ t.sup.hold = s.sup.hold ∧
      s.sup.keepsBase t.sup ∧ s.sup.keepsPicture t.sup ∧ s.sup.keepsRoom t.sup ∧ s.sup.keepsRing t.sup ∧
      t.sup.lock = s.sup.lock ∧ t.sup.geo = s.sup.geo ∧ t.sup.time.crystal = max s.sup.time.crystal e ∧
      t.sup.lamp.demand = s.sup.lamp.demand ∧
      t.sup.lamp.lamps.get l = failedAttempt s.sup l (max s.sup.time.crystal e) ∧
      s.sup.reportsNext t.sup
        [s.sup.reportOf .strikeFail l.code (word (min ((s.sup.lamp.lamps.get l).attempts + 1) 65535))] ∧
      s.sup.failsOver t.sup l (max s.sup.time.crystal e) ∧
      (t.sup.wear.lamps.get l).strikeFailures =
        (if (s.sup.wear.lamps.get l).loaded then min ((s.sup.wear.lamps.get l).strikeFailures + 1) 255
        else (s.sup.wear.lamps.get l).strikeFailures))

/-- WARMUP_EXPIRY of a warming lamp, no held write waiting for a lit lamp: LIT at the demand level with no attempts, or on to
COOLING where the demand is OFF; the report LIT with the level, or with OFF and then LAMP_OFF.
The model's choice: log 4, 6, 7. -/
def Obligations.WarmupEndsInLitOrCooling : Prop :=
  ∀ (l : Lamp) (s : State) (e : Nat), (s.sup.lamp.lamps.get l).state = .warming → (s.sup.lamp.lamps.get l).timer = some e →
    s.sup.noneWaits .lit →
    ∃ t, exec (.warmupExpiry l) s = .next t ∧ s.keepsMemory t ∧ s.sup.keepsPorts t.sup ∧ t.sup.hold = s.sup.hold ∧
      s.sup.keepsBase t.sup ∧ s.sup.keepsPicture t.sup ∧ s.sup.keepsRoom t.sup ∧ s.sup.keepsRing t.sup ∧
      t.sup.lock = s.sup.lock ∧ t.sup.geo = s.sup.geo ∧ t.sup.time.crystal = max s.sup.time.crystal e ∧
      t.sup.lamp.demand = s.sup.lamp.demand ∧ t.sup.lamp.duty = s.sup.lamp.duty ∧
      t.sup.lamp.lamps.get l.other = s.sup.lamp.lamps.get l.other ∧
      s.sup.reportsNext t.sup
        (if s.sup.lamp.demand.level = .off then
          [s.sup.reportOf .lit l.code (word LightLevel.off.code), s.sup.reportOf .lampOff l.code (word LampState.warming.code)]
        else [s.sup.reportOf .lit l.code (word s.sup.lamp.demand.level.code)]) ∧
      t.sup.lamp.lamps.get l =
        (if s.sup.lamp.demand.level = .off then
          { s.sup.lamp.lamps.get l with
            state := .cooling, command := .off, attempts := 0, marked := false
            timer := some (max s.sup.time.crystal e + periodsOfSeconds s.sup.chart.lamp.cooldown) }
        else
          { s.sup.lamp.lamps.get l with
            state := .lit, command := s.sup.lamp.demand.level, attempts := 0, timer := none })

/-- COOLDOWN_EXPIRY of a cooling lamp: FAILED with the cause LAMP, the report FAILED and the notice LAMP_FAILED where it is marked;
else DARK while the demand is OFF, and struck again in DUAL mode where it is usable and the demand is ON. The strike decision
follows in either mode: in ALTERNATE mode the duty lamp is kept or chosen, and struck where it is dark; NO_LAMP is judged.
The model's choice: log 4, 6, 7. -/
def Obligations.CooldownEndsInDarkOrFailed : Prop :=
  ∀ (l : Lamp) (s : State) (e : Nat), (s.sup.lamp.lamps.get l).state = .cooling → (s.sup.lamp.lamps.get l).timer = some e →
    ∃ t, exec (.cooldownExpiry l) s = .next t ∧ s.keepsMemory t ∧ s.sup.keepsPorts t.sup ∧ t.sup.hold = s.sup.hold ∧
      s.sup.keepsBase t.sup ∧ s.sup.keepsPicture t.sup ∧ s.sup.keepsRoom t.sup ∧ s.sup.keepsRing t.sup ∧
      t.sup.lock = s.sup.lock ∧ t.sup.geo = s.sup.geo ∧ t.sup.time.crystal = max s.sup.time.crystal e ∧
      t.sup.lamp.demand = s.sup.lamp.demand ∧
      ((s.sup.lamp.lamps.get l).marked = true →
        t.sup.lamp.lamps.get l = { s.sup.lamp.lamps.get l with state := .failed, timer := none, marked := false } ∧
          t.sup.ring.attention.lamp = true ∧ t.sup.raised .lampFailed ∧
          s.sup.reportsNext t.sup
            [s.sup.reportOf .failed l.code (word (min (s.sup.lamp.lamps.get l).attempts 65535))]) ∧
      ((s.sup.lamp.lamps.get l).marked = false → s.sup.lamp.demand.level = .off →
        t.sup.lamp.lamps.get l = { s.sup.lamp.lamps.get l with state := .dark, timer := none } ∧
          t.sup.lamp.lamps.get l.other = s.sup.lamp.lamps.get l.other ∧ t.sup.lamp.duty = none) ∧
      ((s.sup.lamp.lamps.get l).marked = false → s.sup.lamp.demand.level ≠ .off → s.sup.chart.lamp.dual = true →
        (s.sup.wear.lamps.get l).stage ≠ .spent →
        (t.sup.lamp.lamps.get l).state = (if s.sup.lines.lampok.get l then .warming else .striking)) ∧
      (let ended : LampCell :=
          { s.sup.lamp.lamps.get l with
            state := if (s.sup.lamp.lamps.get l).marked then .failed else .dark, timer := none, marked := false };
        { s.sup with
          time := { s.sup.time with crystal := max s.sup.time.crystal e }
          lamp := { s.sup.lamp with lamps := s.sup.lamp.lamps.set l ended } }.decided t.sup)

/-- PWRFAIL: its assertion, once the records are known, flushes every loaded record and rewrites the shutdown record with the hot
set; its deassertion, and an assertion before, change the line only. The model's choice: log 39. -/
def Obligations.PowerFailFlushesTheRecords : Prop :=
  (∀ (s : State), s.sup.lines.pwrfail = false →
    ∃ t, exec .pwrfail s = .next t ∧ s.keepsMemory t ∧ s.sup.keepsPorts t.sup ∧ s.sup.keepsClock t.sup ∧
      t.sup.hold = s.sup.hold ∧ s.sup.keepsPicture t.sup ∧ s.sup.keepsRoom t.sup ∧ s.sup.keepsRing t.sup ∧
      t.sup.lock = s.sup.lock ∧ t.sup.notice = s.sup.notice ∧ t.sup.geo = s.sup.geo ∧ t.sup.lamp = s.sup.lamp ∧
      t.sup.charter = s.sup.charter ∧ t.sup.reloading = s.sup.reloading ∧
      t.sup.lines = { s.sup.lines with pwrfail := true } ∧
      (s.sup.startUp.step.adopted = false → t.sup.wear = s.sup.wear) ∧
      (s.sup.startUp.step.adopted = true →
        t.sup.wear.hot = s.sup.hotSet ∧ t.sup.wear.startCount = s.sup.wear.startCount ∧
          t.sup.wear.lastCause = s.sup.wear.lastCause ∧
          (∀ l, t.sup.wear.lamps.get l =
            if (s.sup.wear.lamps.get l).loaded then
              { s.sup.wear.lamps.get l with flushCount := 0, record := lampRecordWords l (s.sup.wear.lamps.get l) }
            else s.sup.wear.lamps.get l) ∧
          (∀ k, k < 4 → t.sup.queued (0x3FF10 + k) ((shutdownWords t.sup.wear).getD k 0)) ∧
          (∀ l k, (s.sup.wear.lamps.get l).loaded = true → k < 8 →
            t.sup.queued (lampRecordBase l + k) ((lampRecordWords l (s.sup.wear.lamps.get l)).getD k 0)))) ∧
  (∀ (s : State), s.sup.lines.pwrfail = true → exec .pwrfail s = .next { s with sup := s.sup.grant }) ∧
  (∀ (s : State), exec .pwrfailDeassert s =
    .next { s with sup := { s.sup with lines := { s.sup.lines with pwrfail := false } }.grant })

/-- SECOND_TICK: the uptime and the time of week rise by 1, each wrapping, and RING is judged; a minute boundary of a clock that is
SET writes the CLOCK mirror; no held write waits for the lock where the tick is a minute boundary. Each lamp whose record is
loaded gains a second's use by its state and command, with a flush at each 360th second out of DARK: in full at a tick at which
the timetable does nothing and no lamp enters a later life stage. At every tick the lit seconds are those; the wear is that, and
1800 more where a DARK lamp is struck; and the stage is the later of the one held and the one the wear gives, a lamp that enters
a later one being flushed and noticed, with the cause LAMP where it is SPENT. The model's choice: log 4, 27, 41, 46. -/
def Obligations.SecondTickRaisesClockAndWear : Prop :=
  (∀ (s : State), ((s.sup.room.timeOfWeek + 1) % 604800 % 60 ≠ 0 ∨ s.sup.noneWaits .lock) →
    ∃ t, exec .secondTick s = .next t ∧ s.keepsMemory t ∧ s.sup.keepsPorts t.sup ∧ t.sup.hold = s.sup.hold ∧
      s.sup.keepsBase t.sup ∧ s.sup.keepsRing t.sup ∧ t.sup.admission = s.sup.admission ∧
      t.sup.time = { crystal := max s.sup.time.crystal s.sup.time.nextSecond, nextSecond := s.sup.time.nextSecond + 32768 } ∧
      t.sup.room =
        { timeOfWeek := (s.sup.room.timeOfWeek + 1) % 604800, isSet := s.sup.room.isSet, uptime := s.sup.room.uptime + 1 } ∧
      (s.sup.charter.isSome = true → t.sup.ring.attention.ring = t.sup.ringCauseHolds) ∧
      ((s.sup.room.timeOfWeek + 1) % 604800 % 60 ≠ 0 →
        t.sup.sched = s.sup.sched ∧ t.sup.lock = s.sup.lock ∧ s.sup.keepsPicture t.sup ∧ t.sup.geo = s.sup.geo) ∧
      ((s.sup.room.timeOfWeek + 1) % 604800 % 60 = 0 → s.sup.room.isSet = true → s.mapLaw → s.sup.charter.isSome = true →
        let time := (s.sup.room.timeOfWeek + 1) % 604800
        t.sup.queued (s.sup.place .clock 0) (word (time / 3600 % 24 * 256 + time / 86400)) ∧
          t.sup.queued (s.sup.place .clock 1) (word (time / 60 % 60)))) ∧
  (∀ (l : Lamp) (s : State),
    ((s.sup.room.timeOfWeek + 1) % 604800 % 60 ≠ 0 ∨ s.sup.sched.state ≠ .enabled ∨ s.sup.room.isSet = false) →
    (∀ m, let w := s.sup.wear.lamps.get m
      (stageOf s.sup.chart.lamp (min (w.wear + (s.sup.lamp.lamps.get m).use.1) wearMax)).code ≤ w.stage.code ∧
        (stageOf s.sup.chart.lamp w.wear).code ≤ w.stage.code) →
    ∃ t, exec .secondTick s = .next t ∧ t.sup.lamp = s.sup.lamp ∧
      (let w := s.sup.wear.lamps.get l
        let c := s.sup.lamp.lamps.get l
        let added := w.add c.use.1 c.use.2
        ((s.sup.startUp.step.adopted = false ∨ w.loaded = false) → t.sup.wear.lamps.get l = w) ∧
        (s.sup.startUp.step.adopted = true → w.loaded = true →
          t.sup.wear.lamps.get l =
            (if c.state = .dark then added
            else if w.flushCount + 1 < 360 then { added with flushCount := w.flushCount + 1 }
            else { added with flushCount := 0, record := lampRecordWords l added })))) ∧
  (∀ (l : Lamp) (s : State), ((s.sup.room.timeOfWeek + 1) % 604800 % 60 ≠ 0 ∨ s.sup.noneWaits .lock) →
    s.sup.startUp.step.adopted = true → (s.sup.wear.lamps.get l).loaded = true →
    ∃ t, exec .secondTick s = .next t ∧
      (let held := s.sup.wear.lamps.get l
        let c := s.sup.lamp.lamps.get l
        let added := held.add c.use.1 c.use.2
        let w := t.sup.wear.lamps.get l;
        w.litSeconds = added.litSeconds ∧
          (w.wear = added.wear ∨ (c.state = .dark ∧ w.wear = min (added.wear + 1800) wearMax)) ∧
          w.stage.code = max held.stage.code (stageOf s.sup.chart.lamp w.wear).code ∧
          (held.stage.code < w.stage.code →
            t.sup.raised .lampWorn ∧ w.flushCount = 0 ∧ w.record.getD 0 0 = (lampRecordWords l w).getD 0 0 ∧
              (c.state ≠ .dark → w.record = lampRecordWords l w) ∧
              (w.stage = .spent → t.sup.ring.attention.lamp = true))))

/-- The use that a second adds by state and command, the thresholds of the life stages, and what a judgement does: a stage held or an
earlier one changes nothing; a later one is entered, through WORN where it is SPENT, with a report of each stage entered, the notice
LAMP_WORN and the flush of a loaded record. An entry into SPENT raises the cause LAMP and, with the demand ON, is a strike decision;
else the lamps stand. NO_LAMP is judged. The model's choice: log 6, 7, 46, 53. -/
def Obligations.LifeStagesAdvanceInOrder : Prop :=
  (∀ c : LampCell,
    (c.state = .striking ∨ c.state = .warming → c.use = (10, 0)) ∧
      (c.state = .lit →
        (c.command = .eco → c.use = (6, 1)) ∧ (c.command = .normal → c.use = (10, 1)) ∧
          (c.command = .boost → c.use = (13, 1))) ∧
      (c.state = .dark ∨ c.state = .cooling ∨ c.state = .failed → c.use = (0, 0))) ∧
  (∀ (c : WearCell) (wear lit : Nat),
    (c.add wear lit).wear = min (c.wear + wear) 4294967295 ∧
      (c.add wear lit).litSeconds = min (c.litSeconds + lit) 4294967295) ∧
  (∀ (p : LampParams) (wear : Nat), p.warnHours < p.limitHours →
    (stageOf p wear = .fresh ↔ wear < p.warnHours * 36000) ∧
      (stageOf p wear = .worn ↔ p.warnHours * 36000 ≤ wear ∧ wear < p.limitHours * 36000) ∧
      (stageOf p wear = .spent ↔ p.limitHours * 36000 ≤ wear)) ∧
  (∀ (u : Sup) (l : Lamp),
    let v := u.judgeStage Sup.strikeDecision l
    let held := u.wear.lamps.get l
    let w := v.wear.lamps.get l
    let due := stageOf u.chart.lamp held.wear
    let report := fun (k : ReportKind) =>
      ({ kind := k, subject := l.code, uptime := u.room.uptime, detail := word (min (held.wear / 36000) 65535) } : Report);
    (due.code ≤ held.stage.code → v = u) ∧
    (held.stage.code < due.code →
      w.stage = due ∧ w.wear = held.wear ∧ v.lamp.demand = u.lamp.demand ∧ v.raised .lampWorn ∧
        (held.loaded = true →
          w.flushCount = 0 ∧ w.record = lampRecordWords l w ∧
            ∀ k, k < 8 → v.queued (lampRecordBase l + k) ((lampRecordWords l w).getD k 0)) ∧
        (held.loaded = false → w.record = held.record) ∧
        (held.stage = .fresh → due = .worn → u.mp.reports.length < 16 → report .worn ∈ v.mp.reports) ∧
        (held.stage = .worn → u.mp.reports.length < 16 → report .spent ∈ v.mp.reports) ∧
        (held.stage = .fresh → due = .spent → u.mp.reports.length < 14 →
          ∃ before between after, v.mp.reports = before ++ report .worn :: between ++ report .spent :: after) ∧
        (due = .spent → v.ring.attention.lamp = true) ∧
        (due = .spent → u.lamp.demand.level ≠ .off →
          { u with wear := { u.wear with lamps := u.wear.lamps.set l { held with stage := .spent } } }.decided v) ∧
        (due = .worn ∨ u.lamp.demand.level = .off →
          v.lamp.lamps = u.lamp.lamps ∧ v.lamp.duty = u.lamp.duty ∧ v.noLampExact)))

/-- SECOND_TICK at a minute boundary with the timetable ENABLED and the clock SET: an entry that starts now becomes the current
slot, with its claim, its preset, its light request, its warning state and its SLOT_START report; a slot that ends now makes
its SLOT_END report, and with no entry to follow leaves none and no warning; a slot that goes on is warned of at its warning
minute; with no slot the next entry is prewarmed at its prewarm minute; the level of the slot, or OPEN, is the schedule
contribution, and a change of the level in force has its announcement. The model's choice: log 17, 27. -/
def Obligations.MinuteBoundaryMovesTheSlot : Prop :=
  ∀ (s : State) (time : Nat), time = (s.sup.room.timeOfWeek + 1) % 604800 → time % 60 = 0 →
    s.sup.sched.state = .enabled → s.sup.room.isSet = true → s.sup.noneWaits .lock →
    ∃ t, exec .secondTick s = .next t ∧ t.sup.sched.state = .enabled ∧ t.sup.sched.loaded = s.sup.sched.loaded ∧
      t.sup.lock.schedule = t.sup.slotLevel ∧ s.sup.levelFollows t.sup ∧
      (∀ i e, s.sup.sched.loaded.findIdx? (fun d => d.startMinute == time / 60) = some i → s.sup.sched.loaded[i]? = some e →
        t.sup.sched.current = some i ∧ t.sup.sched.grace = none ∧ s.sup.reportsAlso t.sup (t.sup.reportOf .slotStart i 0) ∧
          t.sup.source.claims.get .schedule = { word := e.claim, time := s.sup.room.uptime + 1 } ∧ t.sup.resolved ∧
          (t.sup.sched.warned = true ↔ e.warnsBy (time / 60)) ∧
          t.sup.lamp.demand = s.sup.lamp.demand.askedBy e (s.sup.room.uptime + 1) ∧
          (e.preset = 0 → t.sup.geo.trim = s.sup.geo.trim) ∧
          (e.preset ≠ 0 → t.sup.geo.trim = s.sup.geoParams.presets.getD (e.preset - 1) (.all 0))) ∧
      (∀ i e, s.sup.sched.current = some i → s.sup.sched.loaded[i]? = some e →
        (e.endMinute = time / 60 ∨ (e.endMinute = 10080 ∧ time = 0)) →
        s.sup.reportsAlso t.sup (t.sup.reportOf .slotEnd i 0)) ∧
      (∀ i e, s.sup.sched.loaded.findIdx? (fun d => d.startMinute == time / 60) = none → s.sup.sched.current = some i →
        s.sup.sched.loaded[i]? = some e → (e.endMinute = time / 60 ∨ (e.endMinute = 10080 ∧ time = 0)) →
        t.sup.sched.current = none ∧ (t.sup.source.claims.get .schedule).word = .withdraw ∧ t.sup.resolved ∧
          t.sup.sched.warned = false ∧
          (e.grace = true →
            t.sup.sched.grace =
              some
                { slotEnd := s.sup.room.uptime + 1
                  endUptime := s.sup.room.uptime + 1 + BitVec.ofNat 32 (s.sup.chart.graceMinutes * 60) })) ∧
      ((∀ d ∈ s.sup.sched.loaded, d.startMinute ≠ time / 60 ∧ d.endMinute ≠ time / 60 ∧ (d.endMinute = 10080 → time ≠ 0)) →
        t.sup.sched.current = s.sup.sched.current) ∧
      (∀ i e, s.sup.sched.loaded.findIdx? (fun d => d.startMinute == time / 60) = none → s.sup.sched.current = some i →
        s.sup.sched.loaded[i]? = some e → ¬(e.endMinute = time / 60 ∨ (e.endMinute = 10080 ∧ time = 0)) →
        t.sup.sched.current = some i ∧ t.sup.lamp.demand = s.sup.lamp.demand ∧
          (t.sup.sched.warned = true ↔
            s.sup.sched.warned = true ∨ (e.warning ≠ 0 ∧ max (e.endMinute - e.warning) e.startMinute = time / 60))) ∧
      (∀ e, s.sup.sched.loaded.findIdx? (fun d => d.startMinute == time / 60) = none → t.sup.sched.current = none →
        s.sup.nextToStart e (time / 60) →
        (s.sup.prewarmsAt e (time / 60) → t.sup.lamp.demand = s.sup.lamp.demand.askedBy e (s.sup.room.uptime + 1)) ∧
          (¬s.sup.prewarmsAt e (time / 60) → t.sup.lamp.demand = s.sup.lamp.demand))

/-- A frame tick, of an edge or a substitute. At the switch sequencer: IDLE stays; MUTING takes the target, with the report
SWITCHED where that is a new select, and settles; SETTLING counts down and then reveals with the requested mute; REVEALING
becomes IDLE, or mutes again for a new target. At the geometry unit: while SLEWING each live coordinate moves toward its target
by the slew step or by what remains, or jumps to it while LIVE_MUTE reads MUTED or the step is 0; where the tick changes
LIVE_MUTE either value may be read, and the two units take the tick whole, one after the other, in either order. The target and
the trim stand, and before the end of the rebuild step of start-up neither unit takes the tick.
The model's choice: log 4, 6, 18, 30. -/
def Obligations.TicksMoveSequencerAndCorners : Prop :=
  (∀ (c : Instr) (s : State), (c = .frameEdge ∨ c = .substituteTick) →
    ∃ t, exec c s = .next t ∧ s.keepsMemory t ∧ s.sup.keepsPorts t.sup ∧ t.sup.hold = s.sup.hold ∧
      s.sup.keepsBase t.sup ∧ s.sup.keepsLamps t.sup ∧ s.sup.keepsRoom t.sup ∧ s.sup.keepsRing t.sup ∧
      t.sup.lock = s.sup.lock ∧ t.sup.notice = s.sup.notice ∧ t.sup.source = s.sup.source ∧
      t.sup.admission = s.sup.admission ∧
      (c = .frameEdge → t.sup.time = s.sup.time ∧ t.sup.seq.nextTick = s.sup.time.crystal + 1639) ∧
      (c = .substituteTick →
        t.sup.time.crystal = max s.sup.time.crystal s.sup.seq.nextTick ∧
          t.sup.seq.nextTick = max s.sup.time.crystal s.sup.seq.nextTick + 547) ∧
      t.sup.seq =
        (if s.sup.startUp.step.takesTicks then
          match s.sup.seq.state with
          | .idle => { s.sup.seq with nextTick := t.sup.seq.nextTick }
          | .muting =>
            { s.sup.seq with
              nextTick := t.sup.seq.nextTick, state := .settling, counter := s.sup.chart.settleCount
              liveSelect := s.sup.source.target }
          | .settling =>
            if s.sup.seq.counter ≤ 1 then
              { s.sup.seq with
                nextTick := t.sup.seq.nextTick, state := .revealing, counter := 0
                liveMute := s.sup.source.requestedMute }
            else { s.sup.seq with nextTick := t.sup.seq.nextTick, counter := s.sup.seq.counter - 1 }
          | .revealing =>
            if s.sup.source.target = s.sup.seq.liveSelect then
              { s.sup.seq with nextTick := t.sup.seq.nextTick, state := .idle }
            else { s.sup.seq with nextTick := t.sup.seq.nextTick, state := .muting, liveMute := .muted }
        else { s.sup.seq with nextTick := t.sup.seq.nextTick }) ∧
      (let moves :=
          s.sup.startUp.step.takesTicks = true ∧ s.sup.seq.state = .muting ∧ s.sup.source.target ≠ s.sup.seq.liveSelect
        let age := match s.sup.source.winner with
          | some k => (s.sup.room.uptime - (s.sup.source.claims.get k).time).toNat
          | none => 0
        let party := match s.sup.source.winner with
          | some k => k.code
          | none => 7;
        (moves →
          s.sup.reportsOnly t.sup [s.sup.reportOf .switched (party * 16 + s.sup.source.target.code) (word (min age 65535))]) ∧
          (¬moves → s.sup.makesNoReport t.sup))) ∧
  (∀ (c : Instr) (s : State), (c = .frameEdge ∨ c = .substituteTick) →
    ∃ t, exec c s = .next t ∧ t.sup.geo.trim = s.sup.geo.trim ∧ t.sup.geo.target = s.sup.geo.target ∧
      ((s.sup.startUp.step.takesTicks = false ∨ s.sup.geo.slewing = false) → t.sup.geo = s.sup.geo) ∧
      (s.sup.startUp.step.takesTicks = true → s.sup.geo.slewing = true →
        t.sup.geo.slewing = (t.sup.geo.live != t.sup.geo.target) ∧
          ∃ mute, (mute = s.sup.seq.liveMute ∨ mute = t.sup.seq.liveMute) ∧
            ∀ i, i < 8 →
              (mute = .muted ∨ s.sup.geoParams.slewStep = 0 → t.sup.geo.live.at i = s.sup.geo.target.at i) ∧
              (mute ≠ .muted → s.sup.geoParams.slewStep ≠ 0 → s.sup.geo.live.at i < s.sup.geo.target.at i →
                t.sup.geo.live.at i = min (s.sup.geo.live.at i + s.sup.geoParams.slewStep) (s.sup.geo.target.at i)) ∧
              (mute ≠ .muted → s.sup.geoParams.slewStep ≠ 0 → s.sup.geo.target.at i ≤ s.sup.geo.live.at i →
                t.sup.geo.live.at i = max (s.sup.geo.live.at i - s.sup.geoParams.slewStep) (s.sup.geo.target.at i)))) ∧
  (∀ (u : Sup),
    (u.startUp.step.takesTicks = false → u.frameTick = u) ∧
      (u.startUp.step.takesTicks = true →
        ∃ v, (v = u ∨ v = u.useTicket) ∧
          (u.frameTick = v.tickSequencer.tickGeometry v.tickSequencer.seq.liveMute ∨
            u.frameTick = (v.tickGeometry v.seq.liveMute).tickSequencer)))

/-- REVEALING ends at the next tick: IDLE when the target still equals LIVE_SELECT, else MUTED and MUTING. A target handed to the
sequencer changes nothing where it equals LIVE_SELECT, nor in REVEALING or MUTING at that moment; in IDLE it mutes the picture
and MUTING is entered; in SETTLING LIVE_SELECT is rewritten, the settle counter starts again, and SWITCHED is reported with the
winner and the age of its claim. The model's choice: log 30. -/
def Obligations.RevealingEndsAtTheNextTick : Prop :=
  (∀ (c : Instr) (s : State), (c = .frameEdge ∨ c = .substituteTick) → s.sup.startUp.step.takesTicks = true →
    s.sup.seq.state = .revealing →
    ∃ t, exec c s = .next t ∧ t.sup.seq.liveSelect = s.sup.seq.liveSelect ∧
      (s.sup.source.target = s.sup.seq.liveSelect →
        t.sup.seq.state = .idle ∧ t.sup.seq.liveMute = s.sup.seq.liveMute) ∧
      (s.sup.source.target ≠ s.sup.seq.liveSelect → t.sup.seq.state = .muting ∧ t.sup.seq.liveMute = .muted)) ∧
  (∀ (u : Sup), u.seq.state = .revealing ∨ u.seq.state = .muting ∨ u.source.target = u.seq.liveSelect → u.takeTarget = u) ∧
  (∀ (u : Sup), u.seq.state = .idle → u.source.target ≠ u.seq.liveSelect →
    let v := u.takeTarget
    v.seq = { u.seq with state := .muting, liveMute := .muted } ∧ v.source = u.source ∧ v.mp.reports = u.mp.reports) ∧
  (∀ (u : Sup), u.seq.state = .settling → u.source.target ≠ u.seq.liveSelect →
    let v := u.takeTarget
    let age := match u.source.winner with
      | some k => (u.room.uptime - (u.source.claims.get k).time).toNat
      | none => 0
    let party := match u.source.winner with
      | some k => k.code
      | none => 7
    v.seq = { u.seq with liveSelect := u.source.target, counter := u.chart.settleCount } ∧ v.source = u.source ∧
      (u.mp.reports.length < 16 →
        v.mp.reports =
          u.mp.reports ++
            [{ kind := .switched, subject := party * 16 + u.source.target.code, uptime := u.room.uptime
               detail := word (min age 65535) }]))

/-- The target is the baseline plus the trim, each sum clamped to the envelope, and the trim stands as written; the order check is the
four spans; a port's trim is accepted only when its target passes the check, a reload keeps a trim only then; and a slew between
corners that pass it goes only through corners that pass it. -/
def Obligations.TargetIsTheClampedSum : Prop :=
  (∀ (g : GeometryParams) (trim : Corners) (i : Nat), i < 8 →
    (targetOf g trim).at i =
      if g.baseline.at i + trim.at i < g.minima.at i then g.minima.at i
      else if g.maxima.at i < g.baseline.at i + trim.at i then g.maxima.at i
      else g.baseline.at i + trim.at i) ∧
  (∀ (u : Sup) (trim : Corners),
    (u.setTrim trim).geo.trim = trim ∧ (u.setTrim trim).geo.target = targetOf u.geoParams trim ∧
      (u.setTrim trim).geo.live = u.geo.live) ∧
  (∀ (g : GeometryParams) (c : Corners),
    orderOk g c = true ↔
      (g.minWidth : Int) ≤ c.trX - c.tlX ∧ (g.minWidth : Int) ≤ c.brX - c.blX ∧
        (g.minHeight : Int) ≤ c.blY - c.tlY ∧ (g.minHeight : Int) ≤ c.brY - c.trY) ∧
  (∀ (u : Sup) (offset : Nat) (bs : List Word) (trim : Corners), u.acceptTrim offset bs = .ok (.absorb (.trim trim)) →
    orderOk u.chart.geometry (targetOf u.chart.geometry trim) = true) ∧
  (∀ (u : Sup), u.reloadGeometry.geo.trim =
    if orderOk u.geoParams (targetOf u.geoParams u.geo.trim) then u.geo.trim else .all 0) ∧
  (∀ (g : GeometryParams) (muted : Bool) (live target : Corners), orderOk g live = true → orderOk g target = true →
    orderOk g (slewed g muted live target) = true)

/-! ### Notices -/

/-- NOTICE_EXPIRY of a live entry and an end of a kind make the entry of the kind alone dead, an end also takes the kind out of the
pending set, and the rest follows by settling. A raise leaves its kind live on the stack or pending: a live entry is refreshed
in its place, a pending kind stays, a kind that finds six entries goes pending, any other is pushed on top with its expiry. An
end leaves its kind neither, and has no effect on the stack or the pending set when it was neither. Settling pops the dead
entries from the top, then pushes pending kinds, the lowest code first, while there is room. Each leaves OVERLAY at its value:
the id and opacity of the top entry's kind, or 0 with an empty stack or a winning class without notice permit.
The model's choice: log 4, 7. -/
def Obligations.NoticesEndAndExpire : Prop :=
  (∀ (k : NoticeKind) (s : State) (e : Nat), s.sup.expiryOf k = some e → k ∉ s.sup.notice.pending →
    ∃ t, exec (.noticeExpiry k) s = .next t ∧ s.keepsMemory t ∧ s.sup.keepsPorts t.sup ∧ t.sup.hold = s.sup.hold ∧
      s.sup.keepsBase t.sup ∧ s.sup.keepsLamps t.sup ∧ s.sup.keepsPicture t.sup ∧ s.sup.keepsRoom t.sup ∧
      s.sup.keepsRing t.sup ∧ t.sup.lock = s.sup.lock ∧ t.sup.geo = s.sup.geo ∧
      t.sup.time.crystal = max s.sup.time.crystal e ∧ t.sup.notice.winningClass = s.sup.notice.winningClass ∧
      (∀ n ∈ t.sup.notice.stack, n.live = true → n.kind ≠ k) ∧ t.sup.notice.overlay = t.sup.overlayValue ∧
      (let dead := s.sup.notice.stack.map fun n =>
          if n.live = true ∧ n.kind = k then { n with live := false, expiry := none } else n
        let settled :=
          { s.sup with
            time := t.sup.time, notice := { s.sup.notice with stack := dead } }.settleStack
        t.sup.notice.stack = settled.notice.stack ∧ t.sup.notice.pending = settled.notice.pending)) ∧
  (∀ (u : Sup) (k : NoticeKind),
    ((∃ n ∈ (u.raiseNotice k).notice.stack, n.live = true ∧ n.kind = k) ∨ k ∈ (u.raiseNotice k).notice.pending) ∧
    (u.raiseNotice k).notice.overlay = (u.raiseNotice k).overlayValue ∧
    (∀ n ∈ (u.endNotice k).notice.stack, n.live = true → n.kind ≠ k) ∧ k ∉ (u.endNotice k).notice.pending ∧
    (u.endNotice k).notice.overlay = (u.endNotice k).overlayValue ∧
    (let dead := u.notice.stack.map fun n =>
        if n.live = true ∧ n.kind = k then { n with live := false, expiry := none } else n
      let settled :=
        { u with
          notice := { u.notice with stack := dead, pending := u.notice.pending.filter fun j => j != k } }.settleStack
      (u.endNotice k).notice.stack = settled.notice.stack ∧ (u.endNotice k).notice.pending = settled.notice.pending) ∧
    (∀ s : State, s.sup = u → s.noticeLaw → (∀ n ∈ u.notice.stack, n.live = true → n.kind ≠ k) → k ∉ u.notice.pending →
      (u.endNotice k).notice.stack = u.notice.stack ∧ (u.endNotice k).notice.pending = u.notice.pending)) ∧
  (∀ (s : State) (k : NoticeKind), s.noticeLaw →
    let u := s.sup
    let v := u.raiseNotice k
    let duration := (u.chart.noticeEntry k).duration
    let expiry := if duration = 0 then none else some (u.after (duration * 32768))
    let live := ∃ n ∈ u.notice.stack, n.live = true ∧ n.kind = k;
    (live →
      v.notice.pending = u.notice.pending ∧
        v.notice.stack =
          u.notice.stack.map fun n => if n.live = true ∧ n.kind = k then { n with expiry := expiry } else n) ∧
    (k ∈ u.notice.pending → v.notice.stack = u.notice.stack ∧ v.notice.pending = u.notice.pending) ∧
    (¬live → k ∉ u.notice.pending → u.notice.stack.length = 6 →
      v.notice.stack = u.notice.stack ∧ (∀ j, j ∈ v.notice.pending ↔ j = k ∨ j ∈ u.notice.pending) ∧
        v.notice.pending.Pairwise fun i j => i.code < j.code) ∧
    (¬live → k ∉ u.notice.pending → u.notice.stack.length ≠ 6 →
      v.notice.stack = u.notice.stack ++ [{ kind := k, expiry := expiry, live := true }] ∧
        v.notice.pending = u.notice.pending)) ∧
  (∀ (u : Sup), u.notice.stack.length ≤ 6 →
    let v := u.settleStack
    let pushed := fun (k : NoticeKind) =>
      let duration := (u.chart.noticeEntry k).duration
      ({ kind := k, expiry := if duration = 0 then none else some (u.after (duration * 32768)), live := true } : NoticeEntry);
    ∃ kept dead taken,
      u.notice.stack = kept ++ dead ∧ (∀ n ∈ dead, n.live = false) ∧ (∀ n, kept.getLast? = some n → n.live = true) ∧
        u.notice.pending = taken ++ v.notice.pending ∧ v.notice.stack = kept ++ taken.map pushed ∧
        v.notice.stack.length ≤ 6 ∧ (v.notice.pending ≠ [] → v.notice.stack.length = 6)) ∧
  (∀ (u : Sup),
    (u.notice.stack = [] → u.overlayValue = 0) ∧
    (∀ below top, u.notice.stack = below ++ [top] →
      let shown := ∀ c, u.notice.winningClass = some c → (u.chart.priorityEntry c).notices = true;
      (shown →
        u.overlayValue = word ((u.chart.noticeEntry top.kind).opacity * 256 + (u.chart.noticeEntry top.kind).overlay)) ∧
      (¬shown → u.overlayValue = 0)))

/-! ### Invariants -/

/-- Parameter memory keeps its canonical form at every step. The model's choice: log 11, 40. -/
def Obligations.StepsKeepMemoryCanonical : Prop := ∀ s t : State, s.memoryLaw → step s = .next t → t.memoryLaw

/-- At every step a lamp's command is other than OFF only in STRIKING, WARMING and LIT, and a lamp bears the failure-pending mark
only in COOLING. No command but the adoption of start-up brings a lamp into service unless it was DARK and usable, or COOLING and usable
with this command its cooldown's expiry, or is mended by this command's clear or replacement: a hot lamp is never struck. From the end
of start-up on the hot set of the shutdown record is that of the lamp states at every step. The model's choice: log 46, 55. -/
def Obligations.StepsKeepTheLampLaw : Prop :=
  (∀ s t : State, s.lampLaw → step s = .next t → t.lampLaw) ∧
  (∀ (c : Instr) (s t : State) (l : Lamp), s.lampLaw → c ≠ .retainedRecordsRead → exec c s = .next t →
    s.sup.serves l = false → t.sup.serves l = true → s.mayStrike t c l) ∧
  (∀ s t : State, s.hotLaw → step s = .next t → t.hotLaw)

/-- At every step the lock level is the highest of the three contributions; so it is SERVICE while a takeover is active, and EXAM
while the schedule hands EXAM and none is. -/
def Obligations.StepsKeepTheHighestLevel : Prop :=
  (∀ s t : State, s.lockLaw → step s = .next t → t.lockLaw) ∧
  (∀ s : State, s.lockLaw → s.sup.lock.takeover.isSome = true → s.sup.lock.level = .service) ∧
  (∀ s : State, s.lockLaw → s.sup.lock.takeover = none → s.sup.lock.schedule = .exam → s.sup.lock.level = .exam)

/-- At every step LIVE_MUTE is MUTED in MUTING and SETTLING, and LIVE_SELECT is the target in IDLE. -/
def Obligations.StepsKeepThePictureLaw : Prop := ∀ s t : State, s.pictureLaw → step s = .next t → t.pictureLaw

/-- At every step at which no slot is current the schedule claim is WITHDRAW and the schedule contribution is OPEN. -/
def Obligations.StepsKeepTheSlotLaw : Prop := ∀ s t : State, s.slotLaw → step s = .next t → t.slotLaw

/-- At every step the hold table has at most 24 entries, no two of one port and start address, and with the release queue at most
64 pool words in use. -/
def Obligations.StepsKeepTheHoldTableLimits : Prop := ∀ s t : State, s.holdLaw → step s = .next t → t.holdLaw

/-- A new entry takes the counter's value as its sequence number; the counter advances by 1, and on past values that entries hold; at
every step the entries' numbers are distinct. -/
def Obligations.StepsKeepSequenceNumbersDistinct : Prop :=
  (∀ s t : State, s.sequenceLaw → step s = .next t → t.sequenceLaw) ∧
  (∀ (u : Sup) (p : Port) (a : Nat) (data : List Word) (n : Nat) (c : Condition),
    let v := u.addEntry p a data n c
    (∃ e, v.hold.entries.getLast? = some e ∧ e.port = p ∧ e.start = a ∧ e.data = data ∧ e.window = n ∧ e.condition = c ∧
        e.time = u.room.uptime ∧ e.sequence = u.hold.counter) ∧
      (u.hold.entries.length ≤ 24 →
        ∃ k, v.hold.counter = u.hold.counter + 1 + BitVec.ofNat 16 k ∧
          v.hold.counter ∉ v.hold.entries.map (·.sequence) ∧
          ∀ j, j < k → u.hold.counter + 1 + BitVec.ofNat 16 j ∈ v.hold.entries.map (·.sequence)))

/-- At every step the notice stack holds at most six entries, one live entry of a kind, a live top entry, and pending kinds only
while it is full. -/
def Obligations.StepsKeepTheNoticeLaw : Prop := ∀ s t : State, s.noticeLaw → step s = .next t → t.noticeLaw

/-- At every step from the rebuild step of start-up on, the target and the live corners lie inside the charter's envelope. -/
def Obligations.StepsKeepTheCornersInside : Prop := ∀ s t : State, s.cornerLaw → step s = .next t → t.cornerLaw

/-- At every step until start-up ends admission is STALLED, no reload is under way and no write is held; and at every step the
source resolver holds eight inputs. -/
def Obligations.StepsKeepStartUpClosed : Prop :=
  (∀ s t : State, s.startLaw → step s = .next t → t.startLaw) ∧
  (∀ s t : State, s.inputLaw → step s = .next t → t.inputLaw)

/-- At every step the arbiter's pointers stand at the first member of each ring while the charter in force has arbiter mode FIXED, the
entries of the hold table stand in the order in which they were made, at most one control write waits for an address, and at most 16
records wait. The model's choice: log 44, 52. -/
def Obligations.StepsKeepPointersSerialsAndQueues : Prop :=
  (∀ s t : State, s.arbiterLaw → step s = .next t → t.arbiterLaw) ∧
  (∀ s t : State, s.serialLaw → step s = .next t → t.serialLaw) ∧
  (∀ s t : State, s.queueLaw → step s = .next t → t.queueLaw)

/-- From the end of the rebuild step of start-up on, with parameter memory in its canonical form, no change of a word that the part
mirrors goes unwritten: at every step that changes the value of a status page word, of a LIGHT, CLAIM, MUTE or GEOMETRY mirror, of a
lamp record or of the shutdown record, and after start-up of the SCHEDULE header, a control write of the new value waits in the queue
or is being done, or was begun and ended by a step that found the memory port free. The window map in force keeps to R20 at every step.
The model's choice: log 14, 57. -/
def Obligations.ChangedWordsAreQueued : Prop :=
  (∀ s t : State, s.mapLaw → step s = .next t → t.mapLaw) ∧
  (∀ s t : State, s.mapLaw → s.memoryLaw → s.sup.charter.isSome = true → step s = .next t →
    s.sup.startUp.step.takesTicks = true → t.sup.startUp.step.takesTicks = true →
    (∀ o, o < 32 → t.sup.statusWord o ≠ s.sup.statusWord o →
      t.sup.queued (t.sup.place .status o) (t.sup.statusWord o) ∨
        (s.sup.mp.access = none ∧ t.mem.read (t.sup.place .status o) = t.sup.statusWord o)) ∧
    (t.sup.lamp.demand.level ≠ s.sup.lamp.demand.level →
      t.sup.queued (t.sup.place .light 0) (word t.sup.lamp.demand.level.code)) ∧
    (∀ k, (t.sup.source.claims.get k).word ≠ (s.sup.source.claims.get k).word →
      t.sup.queued (t.sup.place .claim k.code) (t.sup.source.claims.get k).word.encode) ∧
    (t.sup.source.requestedMute ≠ s.sup.source.requestedMute →
      t.sup.queued (t.sup.place .mute 0) (word t.sup.source.requestedMute.code)) ∧
    (∀ i, i < 8 → t.sup.geo.trim.at i ≠ s.sup.geo.trim.at i →
      t.sup.queued (t.sup.place .geometry i) (coordWord (t.sup.geo.trim.at i))) ∧
    (∀ l, (t.sup.wear.lamps.get l).record ≠ (s.sup.wear.lamps.get l).record →
      ∀ k, k < 8 → t.sup.queued (lampRecordBase l + k) ((t.sup.wear.lamps.get l).record.getD k 0)) ∧
    (∀ k, k < 4 → (shutdownWords t.sup.wear).getD k 0 ≠ (shutdownWords s.sup.wear).getD k 0 →
      t.sup.queued (0x3FF10 + k) ((shutdownWords t.sup.wear).getD k 0)) ∧
    (s.sup.startUp.step = .running → (t.sup.sched.count, t.sup.sched.enable) ≠ (s.sup.sched.count, s.sup.sched.enable) →
      t.sup.queued 0x3E000 (headerWord t.sup.sched.count t.sup.sched.enable)))

/-- The state right after reset meets every law. The model's choice: log 11, 13, 24, 52. -/
def Obligations.ResetMeetsTheLaws : Prop :=
  State.reset.memoryLaw ∧ State.reset.lampLaw ∧ State.reset.lockLaw ∧ State.reset.pictureLaw ∧ State.reset.slotLaw ∧
    State.reset.holdLaw ∧ State.reset.sequenceLaw ∧ State.reset.noticeLaw ∧ State.reset.cornerLaw ∧
    State.reset.startLaw ∧ State.reset.inputLaw ∧ State.reset.arbiterLaw ∧ State.reset.serialLaw ∧ State.reset.queueLaw ∧
    State.reset.mapLaw ∧ State.reset.hotLaw
end

