-- ==== Sys2Proof/Laws/State.lean ====
section
/-! SUPPORT. The fields of the supervisor after each of its small named updates, and what the accessors read back: all true by
definition or by cases, for simp. -/

namespace Sys2Proof.Machine

/-! ### useTicket -/

@[simp] theorem Sup.useTicket_time (s : Sup) : (s.useTicket).time = s.time := rfl
@[simp] theorem Sup.useTicket_ticket (s : Sup) : (s.useTicket).ticket = s.ticket + 1 := rfl
@[simp] theorem Sup.useTicket_lines (s : Sup) : (s.useTicket).lines = s.lines := rfl
@[simp] theorem Sup.useTicket_startUp (s : Sup) : (s.useTicket).startUp = s.startUp := rfl
@[simp] theorem Sup.useTicket_charter (s : Sup) : (s.useTicket).charter = s.charter := rfl
@[simp] theorem Sup.useTicket_isFallback (s : Sup) : (s.useTicket).isFallback = s.isFallback := rfl
@[simp] theorem Sup.useTicket_reloading (s : Sup) : (s.useTicket).reloading = s.reloading := rfl
@[simp] theorem Sup.useTicket_admission (s : Sup) : (s.useTicket).admission = s.admission := rfl
@[simp] theorem Sup.useTicket_ports (s : Sup) : (s.useTicket).ports = s.ports := rfl
@[simp] theorem Sup.useTicket_mp (s : Sup) : (s.useTicket).mp = s.mp := rfl
@[simp] theorem Sup.useTicket_lock (s : Sup) : (s.useTicket).lock = s.lock := rfl
@[simp] theorem Sup.useTicket_hold (s : Sup) : (s.useTicket).hold = s.hold := rfl
@[simp] theorem Sup.useTicket_lamp (s : Sup) : (s.useTicket).lamp = s.lamp := rfl
@[simp] theorem Sup.useTicket_wear (s : Sup) : (s.useTicket).wear = s.wear := rfl
@[simp] theorem Sup.useTicket_source (s : Sup) : (s.useTicket).source = s.source := rfl
@[simp] theorem Sup.useTicket_seq (s : Sup) : (s.useTicket).seq = s.seq := rfl
@[simp] theorem Sup.useTicket_notice (s : Sup) : (s.useTicket).notice = s.notice := rfl
@[simp] theorem Sup.useTicket_geo (s : Sup) : (s.useTicket).geo = s.geo := rfl
@[simp] theorem Sup.useTicket_room (s : Sup) : (s.useTicket).room = s.room := rfl
@[simp] theorem Sup.useTicket_sched (s : Sup) : (s.useTicket).sched = s.sched := rfl
@[simp] theorem Sup.useTicket_ring (s : Sup) : (s.useTicket).ring = s.ring := rfl

/-! ### reach -/

@[simp] theorem Sup.reach_time (s : Sup) (n : Nat) : (s.reach n).time = { s.time with crystal := max s.time.crystal n } :=
    rfl
@[simp] theorem Sup.reach_ticket (s : Sup) (n : Nat) : (s.reach n).ticket = s.ticket := rfl
@[simp] theorem Sup.reach_lines (s : Sup) (n : Nat) : (s.reach n).lines = s.lines := rfl
@[simp] theorem Sup.reach_startUp (s : Sup) (n : Nat) : (s.reach n).startUp = s.startUp := rfl
@[simp] theorem Sup.reach_charter (s : Sup) (n : Nat) : (s.reach n).charter = s.charter := rfl
@[simp] theorem Sup.reach_isFallback (s : Sup) (n : Nat) : (s.reach n).isFallback = s.isFallback := rfl
@[simp] theorem Sup.reach_reloading (s : Sup) (n : Nat) : (s.reach n).reloading = s.reloading := rfl
@[simp] theorem Sup.reach_admission (s : Sup) (n : Nat) : (s.reach n).admission = s.admission := rfl
@[simp] theorem Sup.reach_ports (s : Sup) (n : Nat) : (s.reach n).ports = s.ports := rfl
@[simp] theorem Sup.reach_mp (s : Sup) (n : Nat) : (s.reach n).mp = s.mp := rfl
@[simp] theorem Sup.reach_lock (s : Sup) (n : Nat) : (s.reach n).lock = s.lock := rfl
@[simp] theorem Sup.reach_hold (s : Sup) (n : Nat) : (s.reach n).hold = s.hold := rfl
@[simp] theorem Sup.reach_lamp (s : Sup) (n : Nat) : (s.reach n).lamp = s.lamp := rfl
@[simp] theorem Sup.reach_wear (s : Sup) (n : Nat) : (s.reach n).wear = s.wear := rfl
@[simp] theorem Sup.reach_source (s : Sup) (n : Nat) : (s.reach n).source = s.source := rfl
@[simp] theorem Sup.reach_seq (s : Sup) (n : Nat) : (s.reach n).seq = s.seq := rfl
@[simp] theorem Sup.reach_notice (s : Sup) (n : Nat) : (s.reach n).notice = s.notice := rfl
@[simp] theorem Sup.reach_geo (s : Sup) (n : Nat) : (s.reach n).geo = s.geo := rfl
@[simp] theorem Sup.reach_room (s : Sup) (n : Nat) : (s.reach n).room = s.room := rfl
@[simp] theorem Sup.reach_sched (s : Sup) (n : Nat) : (s.reach n).sched = s.sched := rfl
@[simp] theorem Sup.reach_ring (s : Sup) (n : Nat) : (s.reach n).ring = s.ring := rfl

/-! ### setPort -/

@[simp] theorem Sup.setPort_time (s : Sup) (p : Port) (c : PortCtl) : (s.setPort p c).time = s.time := rfl
@[simp] theorem Sup.setPort_ticket (s : Sup) (p : Port) (c : PortCtl) : (s.setPort p c).ticket = s.ticket := rfl
@[simp] theorem Sup.setPort_lines (s : Sup) (p : Port) (c : PortCtl) : (s.setPort p c).lines = s.lines := rfl
@[simp] theorem Sup.setPort_startUp (s : Sup) (p : Port) (c : PortCtl) : (s.setPort p c).startUp = s.startUp := rfl
@[simp] theorem Sup.setPort_charter (s : Sup) (p : Port) (c : PortCtl) : (s.setPort p c).charter = s.charter := rfl
@[simp] theorem Sup.setPort_isFallback (s : Sup) (p : Port) (c : PortCtl) : (s.setPort p c).isFallback = s.isFallback :=
    rfl
@[simp] theorem Sup.setPort_reloading (s : Sup) (p : Port) (c : PortCtl) : (s.setPort p c).reloading = s.reloading :=
    rfl
@[simp] theorem Sup.setPort_admission (s : Sup) (p : Port) (c : PortCtl) : (s.setPort p c).admission = s.admission :=
    rfl
@[simp] theorem Sup.setPort_ports (s : Sup) (p : Port) (c : PortCtl) : (s.setPort p c).ports = s.ports.set p c := rfl
@[simp] theorem Sup.setPort_mp (s : Sup) (p : Port) (c : PortCtl) : (s.setPort p c).mp = s.mp := rfl
@[simp] theorem Sup.setPort_lock (s : Sup) (p : Port) (c : PortCtl) : (s.setPort p c).lock = s.lock := rfl
@[simp] theorem Sup.setPort_hold (s : Sup) (p : Port) (c : PortCtl) : (s.setPort p c).hold = s.hold := rfl
@[simp] theorem Sup.setPort_lamp (s : Sup) (p : Port) (c : PortCtl) : (s.setPort p c).lamp = s.lamp := rfl
@[simp] theorem Sup.setPort_wear (s : Sup) (p : Port) (c : PortCtl) : (s.setPort p c).wear = s.wear := rfl
@[simp] theorem Sup.setPort_source (s : Sup) (p : Port) (c : PortCtl) : (s.setPort p c).source = s.source := rfl
@[simp] theorem Sup.setPort_seq (s : Sup) (p : Port) (c : PortCtl) : (s.setPort p c).seq = s.seq := rfl
@[simp] theorem Sup.setPort_notice (s : Sup) (p : Port) (c : PortCtl) : (s.setPort p c).notice = s.notice := rfl
@[simp] theorem Sup.setPort_geo (s : Sup) (p : Port) (c : PortCtl) : (s.setPort p c).geo = s.geo := rfl
@[simp] theorem Sup.setPort_room (s : Sup) (p : Port) (c : PortCtl) : (s.setPort p c).room = s.room := rfl
@[simp] theorem Sup.setPort_sched (s : Sup) (p : Port) (c : PortCtl) : (s.setPort p c).sched = s.sched := rfl
@[simp] theorem Sup.setPort_ring (s : Sup) (p : Port) (c : PortCtl) : (s.setPort p c).ring = s.ring := rfl

/-! ### setCell -/

@[simp] theorem Sup.setCell_time (s : Sup) (l : Lamp) (c : LampCell) : (s.setCell l c).time = s.time := rfl
@[simp] theorem Sup.setCell_ticket (s : Sup) (l : Lamp) (c : LampCell) : (s.setCell l c).ticket = s.ticket := rfl
@[simp] theorem Sup.setCell_lines (s : Sup) (l : Lamp) (c : LampCell) : (s.setCell l c).lines = s.lines := rfl
@[simp] theorem Sup.setCell_startUp (s : Sup) (l : Lamp) (c : LampCell) : (s.setCell l c).startUp = s.startUp := rfl
@[simp] theorem Sup.setCell_charter (s : Sup) (l : Lamp) (c : LampCell) : (s.setCell l c).charter = s.charter := rfl
@[simp] theorem Sup.setCell_isFallback (s : Sup) (l : Lamp) (c : LampCell) : (s.setCell l c).isFallback = s.isFallback :=
    rfl
@[simp] theorem Sup.setCell_reloading (s : Sup) (l : Lamp) (c : LampCell) : (s.setCell l c).reloading = s.reloading :=
    rfl
@[simp] theorem Sup.setCell_admission (s : Sup) (l : Lamp) (c : LampCell) : (s.setCell l c).admission = s.admission :=
    rfl
@[simp] theorem Sup.setCell_ports (s : Sup) (l : Lamp) (c : LampCell) : (s.setCell l c).ports = s.ports := rfl
@[simp] theorem Sup.setCell_mp (s : Sup) (l : Lamp) (c : LampCell) : (s.setCell l c).mp = s.mp := rfl
@[simp] theorem Sup.setCell_lock (s : Sup) (l : Lamp) (c : LampCell) : (s.setCell l c).lock = s.lock := rfl
@[simp] theorem Sup.setCell_hold (s : Sup) (l : Lamp) (c : LampCell) : (s.setCell l c).hold = s.hold := rfl
@[simp] theorem Sup.setCell_lamp (s : Sup) (l : Lamp) (c : LampCell) :
    (s.setCell l c).lamp = { s.lamp with lamps := s.lamp.lamps.set l c } :=
    rfl
@[simp] theorem Sup.setCell_wear (s : Sup) (l : Lamp) (c : LampCell) : (s.setCell l c).wear = s.wear := rfl
@[simp] theorem Sup.setCell_source (s : Sup) (l : Lamp) (c : LampCell) : (s.setCell l c).source = s.source := rfl
@[simp] theorem Sup.setCell_seq (s : Sup) (l : Lamp) (c : LampCell) : (s.setCell l c).seq = s.seq := rfl
@[simp] theorem Sup.setCell_notice (s : Sup) (l : Lamp) (c : LampCell) : (s.setCell l c).notice = s.notice := rfl
@[simp] theorem Sup.setCell_geo (s : Sup) (l : Lamp) (c : LampCell) : (s.setCell l c).geo = s.geo := rfl
@[simp] theorem Sup.setCell_room (s : Sup) (l : Lamp) (c : LampCell) : (s.setCell l c).room = s.room := rfl
@[simp] theorem Sup.setCell_sched (s : Sup) (l : Lamp) (c : LampCell) : (s.setCell l c).sched = s.sched := rfl
@[simp] theorem Sup.setCell_ring (s : Sup) (l : Lamp) (c : LampCell) : (s.setCell l c).ring = s.ring := rfl

/-! ### setWear -/

@[simp] theorem Sup.setWear_time (s : Sup) (l : Lamp) (c : WearCell) : (s.setWear l c).time = s.time := rfl
@[simp] theorem Sup.setWear_ticket (s : Sup) (l : Lamp) (c : WearCell) : (s.setWear l c).ticket = s.ticket := rfl
@[simp] theorem Sup.setWear_lines (s : Sup) (l : Lamp) (c : WearCell) : (s.setWear l c).lines = s.lines := rfl
@[simp] theorem Sup.setWear_startUp (s : Sup) (l : Lamp) (c : WearCell) : (s.setWear l c).startUp = s.startUp := rfl
@[simp] theorem Sup.setWear_charter (s : Sup) (l : Lamp) (c : WearCell) : (s.setWear l c).charter = s.charter := rfl
@[simp] theorem Sup.setWear_isFallback (s : Sup) (l : Lamp) (c : WearCell) : (s.setWear l c).isFallback = s.isFallback :=
    rfl
@[simp] theorem Sup.setWear_reloading (s : Sup) (l : Lamp) (c : WearCell) : (s.setWear l c).reloading = s.reloading :=
    rfl
@[simp] theorem Sup.setWear_admission (s : Sup) (l : Lamp) (c : WearCell) : (s.setWear l c).admission = s.admission :=
    rfl
@[simp] theorem Sup.setWear_ports (s : Sup) (l : Lamp) (c : WearCell) : (s.setWear l c).ports = s.ports := rfl
@[simp] theorem Sup.setWear_mp (s : Sup) (l : Lamp) (c : WearCell) : (s.setWear l c).mp = s.mp := rfl
@[simp] theorem Sup.setWear_lock (s : Sup) (l : Lamp) (c : WearCell) : (s.setWear l c).lock = s.lock := rfl
@[simp] theorem Sup.setWear_hold (s : Sup) (l : Lamp) (c : WearCell) : (s.setWear l c).hold = s.hold := rfl
@[simp] theorem Sup.setWear_lamp (s : Sup) (l : Lamp) (c : WearCell) : (s.setWear l c).lamp = s.lamp := rfl
@[simp] theorem Sup.setWear_wear (s : Sup) (l : Lamp) (c : WearCell) :
    (s.setWear l c).wear = { s.wear with lamps := s.wear.lamps.set l c } :=
    rfl
@[simp] theorem Sup.setWear_source (s : Sup) (l : Lamp) (c : WearCell) : (s.setWear l c).source = s.source := rfl
@[simp] theorem Sup.setWear_seq (s : Sup) (l : Lamp) (c : WearCell) : (s.setWear l c).seq = s.seq := rfl
@[simp] theorem Sup.setWear_notice (s : Sup) (l : Lamp) (c : WearCell) : (s.setWear l c).notice = s.notice := rfl
@[simp] theorem Sup.setWear_geo (s : Sup) (l : Lamp) (c : WearCell) : (s.setWear l c).geo = s.geo := rfl
@[simp] theorem Sup.setWear_room (s : Sup) (l : Lamp) (c : WearCell) : (s.setWear l c).room = s.room := rfl
@[simp] theorem Sup.setWear_sched (s : Sup) (l : Lamp) (c : WearCell) : (s.setWear l c).sched = s.sched := rfl
@[simp] theorem Sup.setWear_ring (s : Sup) (l : Lamp) (c : WearCell) : (s.setWear l c).ring = s.ring := rfl

/-! ### setSignal -/

@[simp] theorem Sup.setSignal_time (s : Sup) (i : Fin 8) (g : Signal) : (s.setSignal i g).time = s.time := rfl
@[simp] theorem Sup.setSignal_ticket (s : Sup) (i : Fin 8) (g : Signal) : (s.setSignal i g).ticket = s.ticket := rfl
@[simp] theorem Sup.setSignal_lines (s : Sup) (i : Fin 8) (g : Signal) : (s.setSignal i g).lines = s.lines := rfl
@[simp] theorem Sup.setSignal_startUp (s : Sup) (i : Fin 8) (g : Signal) : (s.setSignal i g).startUp = s.startUp :=
    rfl
@[simp] theorem Sup.setSignal_charter (s : Sup) (i : Fin 8) (g : Signal) : (s.setSignal i g).charter = s.charter :=
    rfl
@[simp] theorem Sup.setSignal_isFallback (s : Sup) (i : Fin 8) (g : Signal) : (s.setSignal i g).isFallback = s.isFallback :=
    rfl
@[simp] theorem Sup.setSignal_reloading (s : Sup) (i : Fin 8) (g : Signal) : (s.setSignal i g).reloading = s.reloading :=
    rfl
@[simp] theorem Sup.setSignal_admission (s : Sup) (i : Fin 8) (g : Signal) : (s.setSignal i g).admission = s.admission :=
    rfl
@[simp] theorem Sup.setSignal_ports (s : Sup) (i : Fin 8) (g : Signal) : (s.setSignal i g).ports = s.ports := rfl
@[simp] theorem Sup.setSignal_mp (s : Sup) (i : Fin 8) (g : Signal) : (s.setSignal i g).mp = s.mp := rfl
@[simp] theorem Sup.setSignal_lock (s : Sup) (i : Fin 8) (g : Signal) : (s.setSignal i g).lock = s.lock := rfl
@[simp] theorem Sup.setSignal_hold (s : Sup) (i : Fin 8) (g : Signal) : (s.setSignal i g).hold = s.hold := rfl
@[simp] theorem Sup.setSignal_lamp (s : Sup) (i : Fin 8) (g : Signal) : (s.setSignal i g).lamp = s.lamp := rfl
@[simp] theorem Sup.setSignal_wear (s : Sup) (i : Fin 8) (g : Signal) : (s.setSignal i g).wear = s.wear := rfl
@[simp] theorem Sup.setSignal_source (s : Sup) (i : Fin 8) (g : Signal) :
    (s.setSignal i g).source = { s.source with signals := s.source.signals.set i.val g } :=
    rfl
@[simp] theorem Sup.setSignal_seq (s : Sup) (i : Fin 8) (g : Signal) : (s.setSignal i g).seq = s.seq := rfl
@[simp] theorem Sup.setSignal_notice (s : Sup) (i : Fin 8) (g : Signal) : (s.setSignal i g).notice = s.notice := rfl
@[simp] theorem Sup.setSignal_geo (s : Sup) (i : Fin 8) (g : Signal) : (s.setSignal i g).geo = s.geo := rfl
@[simp] theorem Sup.setSignal_room (s : Sup) (i : Fin 8) (g : Signal) : (s.setSignal i g).room = s.room := rfl
@[simp] theorem Sup.setSignal_sched (s : Sup) (i : Fin 8) (g : Signal) : (s.setSignal i g).sched = s.sched := rfl
@[simp] theorem Sup.setSignal_ring (s : Sup) (i : Fin 8) (g : Signal) : (s.setSignal i g).ring = s.ring := rfl

/-! ### begin -/

@[simp] theorem Sup.begin_time (s : Sup) (a : Access) : (s.begin a).time = s.time := rfl
@[simp] theorem Sup.begin_ticket (s : Sup) (a : Access) : (s.begin a).ticket = s.ticket := rfl
@[simp] theorem Sup.begin_lines (s : Sup) (a : Access) : (s.begin a).lines = s.lines := rfl
@[simp] theorem Sup.begin_startUp (s : Sup) (a : Access) : (s.begin a).startUp = s.startUp := rfl
@[simp] theorem Sup.begin_charter (s : Sup) (a : Access) : (s.begin a).charter = s.charter := rfl
@[simp] theorem Sup.begin_isFallback (s : Sup) (a : Access) : (s.begin a).isFallback = s.isFallback := rfl
@[simp] theorem Sup.begin_reloading (s : Sup) (a : Access) : (s.begin a).reloading = s.reloading := rfl
@[simp] theorem Sup.begin_admission (s : Sup) (a : Access) : (s.begin a).admission = s.admission := rfl
@[simp] theorem Sup.begin_ports (s : Sup) (a : Access) : (s.begin a).ports = s.ports := rfl
@[simp] theorem Sup.begin_mp (s : Sup) (a : Access) : (s.begin a).mp = { s.mp with access := some a } := rfl
@[simp] theorem Sup.begin_lock (s : Sup) (a : Access) : (s.begin a).lock = s.lock := rfl
@[simp] theorem Sup.begin_hold (s : Sup) (a : Access) : (s.begin a).hold = s.hold := rfl
@[simp] theorem Sup.begin_lamp (s : Sup) (a : Access) : (s.begin a).lamp = s.lamp := rfl
@[simp] theorem Sup.begin_wear (s : Sup) (a : Access) : (s.begin a).wear = s.wear := rfl
@[simp] theorem Sup.begin_source (s : Sup) (a : Access) : (s.begin a).source = s.source := rfl
@[simp] theorem Sup.begin_seq (s : Sup) (a : Access) : (s.begin a).seq = s.seq := rfl
@[simp] theorem Sup.begin_notice (s : Sup) (a : Access) : (s.begin a).notice = s.notice := rfl
@[simp] theorem Sup.begin_geo (s : Sup) (a : Access) : (s.begin a).geo = s.geo := rfl
@[simp] theorem Sup.begin_room (s : Sup) (a : Access) : (s.begin a).room = s.room := rfl
@[simp] theorem Sup.begin_sched (s : Sup) (a : Access) : (s.begin a).sched = s.sched := rfl
@[simp] theorem Sup.begin_ring (s : Sup) (a : Access) : (s.begin a).ring = s.ring := rfl

/-! ### queueControl -/

@[simp] theorem Sup.queueControl_time (s : Sup) (a : Nat) (v : Word) : (s.queueControl a v).time = s.time := rfl
@[simp] theorem Sup.queueControl_ticket (s : Sup) (a : Nat) (v : Word) : (s.queueControl a v).ticket = s.ticket := rfl
@[simp] theorem Sup.queueControl_lines (s : Sup) (a : Nat) (v : Word) : (s.queueControl a v).lines = s.lines := rfl
@[simp] theorem Sup.queueControl_startUp (s : Sup) (a : Nat) (v : Word) : (s.queueControl a v).startUp = s.startUp :=
    rfl
@[simp] theorem Sup.queueControl_charter (s : Sup) (a : Nat) (v : Word) : (s.queueControl a v).charter = s.charter :=
    rfl
@[simp] theorem Sup.queueControl_isFallback (s : Sup) (a : Nat) (v : Word) : (s.queueControl a v).isFallback = s.isFallback :=
    rfl
@[simp] theorem Sup.queueControl_reloading (s : Sup) (a : Nat) (v : Word) : (s.queueControl a v).reloading = s.reloading :=
    rfl
@[simp] theorem Sup.queueControl_admission (s : Sup) (a : Nat) (v : Word) : (s.queueControl a v).admission = s.admission :=
    rfl
@[simp] theorem Sup.queueControl_ports (s : Sup) (a : Nat) (v : Word) : (s.queueControl a v).ports = s.ports := rfl
@[simp] theorem Sup.queueControl_mp (s : Sup) (a : Nat) (v : Word) :
    (s.queueControl a v).mp = { s.mp with control := coalesce s.mp.control a v } :=
    rfl
@[simp] theorem Sup.queueControl_lock (s : Sup) (a : Nat) (v : Word) : (s.queueControl a v).lock = s.lock := rfl
@[simp] theorem Sup.queueControl_hold (s : Sup) (a : Nat) (v : Word) : (s.queueControl a v).hold = s.hold := rfl
@[simp] theorem Sup.queueControl_lamp (s : Sup) (a : Nat) (v : Word) : (s.queueControl a v).lamp = s.lamp := rfl
@[simp] theorem Sup.queueControl_wear (s : Sup) (a : Nat) (v : Word) : (s.queueControl a v).wear = s.wear := rfl
@[simp] theorem Sup.queueControl_source (s : Sup) (a : Nat) (v : Word) : (s.queueControl a v).source = s.source := rfl
@[simp] theorem Sup.queueControl_seq (s : Sup) (a : Nat) (v : Word) : (s.queueControl a v).seq = s.seq := rfl
@[simp] theorem Sup.queueControl_notice (s : Sup) (a : Nat) (v : Word) : (s.queueControl a v).notice = s.notice := rfl
@[simp] theorem Sup.queueControl_geo (s : Sup) (a : Nat) (v : Word) : (s.queueControl a v).geo = s.geo := rfl
@[simp] theorem Sup.queueControl_room (s : Sup) (a : Nat) (v : Word) : (s.queueControl a v).room = s.room := rfl
@[simp] theorem Sup.queueControl_sched (s : Sup) (a : Nat) (v : Word) : (s.queueControl a v).sched = s.sched := rfl
@[simp] theorem Sup.queueControl_ring (s : Sup) (a : Nat) (v : Word) : (s.queueControl a v).ring = s.ring := rfl

/-! ### dropReads -/

@[simp] theorem Sup.dropReads_time (s : Sup) (r : Reader) : (s.dropReads r).time = s.time := rfl
@[simp] theorem Sup.dropReads_ticket (s : Sup) (r : Reader) : (s.dropReads r).ticket = s.ticket := rfl
@[simp] theorem Sup.dropReads_lines (s : Sup) (r : Reader) : (s.dropReads r).lines = s.lines := rfl
@[simp] theorem Sup.dropReads_startUp (s : Sup) (r : Reader) : (s.dropReads r).startUp = s.startUp := rfl
@[simp] theorem Sup.dropReads_charter (s : Sup) (r : Reader) : (s.dropReads r).charter = s.charter := rfl
@[simp] theorem Sup.dropReads_isFallback (s : Sup) (r : Reader) : (s.dropReads r).isFallback = s.isFallback := rfl
@[simp] theorem Sup.dropReads_reloading (s : Sup) (r : Reader) : (s.dropReads r).reloading = s.reloading := rfl
@[simp] theorem Sup.dropReads_admission (s : Sup) (r : Reader) : (s.dropReads r).admission = s.admission := rfl
@[simp] theorem Sup.dropReads_ports (s : Sup) (r : Reader) : (s.dropReads r).ports = s.ports := rfl
@[simp] theorem Sup.dropReads_mp (s : Sup) (r : Reader) :
    (s.dropReads r).mp = { s.mp with reads := s.mp.reads.filter fun q => q.reader != r } :=
    rfl
@[simp] theorem Sup.dropReads_lock (s : Sup) (r : Reader) : (s.dropReads r).lock = s.lock := rfl
@[simp] theorem Sup.dropReads_hold (s : Sup) (r : Reader) : (s.dropReads r).hold = s.hold := rfl
@[simp] theorem Sup.dropReads_lamp (s : Sup) (r : Reader) : (s.dropReads r).lamp = s.lamp := rfl
@[simp] theorem Sup.dropReads_wear (s : Sup) (r : Reader) : (s.dropReads r).wear = s.wear := rfl
@[simp] theorem Sup.dropReads_source (s : Sup) (r : Reader) : (s.dropReads r).source = s.source := rfl
@[simp] theorem Sup.dropReads_seq (s : Sup) (r : Reader) : (s.dropReads r).seq = s.seq := rfl
@[simp] theorem Sup.dropReads_notice (s : Sup) (r : Reader) : (s.dropReads r).notice = s.notice := rfl
@[simp] theorem Sup.dropReads_geo (s : Sup) (r : Reader) : (s.dropReads r).geo = s.geo := rfl
@[simp] theorem Sup.dropReads_room (s : Sup) (r : Reader) : (s.dropReads r).room = s.room := rfl
@[simp] theorem Sup.dropReads_sched (s : Sup) (r : Reader) : (s.dropReads r).sched = s.sched := rfl
@[simp] theorem Sup.dropReads_ring (s : Sup) (r : Reader) : (s.dropReads r).ring = s.ring := rfl

/-! ### dropEntry -/

@[simp] theorem Sup.dropEntry_time (s : Sup) (p : Port) (start : Nat) : (s.dropEntry p start).time = s.time := rfl
@[simp] theorem Sup.dropEntry_ticket (s : Sup) (p : Port) (start : Nat) : (s.dropEntry p start).ticket = s.ticket :=
    rfl
@[simp] theorem Sup.dropEntry_lines (s : Sup) (p : Port) (start : Nat) : (s.dropEntry p start).lines = s.lines := rfl
@[simp] theorem Sup.dropEntry_startUp (s : Sup) (p : Port) (start : Nat) : (s.dropEntry p start).startUp = s.startUp :=
    rfl
@[simp] theorem Sup.dropEntry_charter (s : Sup) (p : Port) (start : Nat) : (s.dropEntry p start).charter = s.charter :=
    rfl
@[simp] theorem Sup.dropEntry_isFallback (s : Sup) (p : Port) (start : Nat) : (s.dropEntry p start).isFallback = s.isFallback :=
    rfl
@[simp] theorem Sup.dropEntry_reloading (s : Sup) (p : Port) (start : Nat) : (s.dropEntry p start).reloading = s.reloading :=
    rfl
@[simp] theorem Sup.dropEntry_admission (s : Sup) (p : Port) (start : Nat) : (s.dropEntry p start).admission = s.admission :=
    rfl
@[simp] theorem Sup.dropEntry_ports (s : Sup) (p : Port) (start : Nat) : (s.dropEntry p start).ports = s.ports := rfl
@[simp] theorem Sup.dropEntry_mp (s : Sup) (p : Port) (start : Nat) : (s.dropEntry p start).mp = s.mp := rfl
@[simp] theorem Sup.dropEntry_lock (s : Sup) (p : Port) (start : Nat) : (s.dropEntry p start).lock = s.lock := rfl
@[simp] theorem Sup.dropEntry_hold (s : Sup) (p : Port) (start : Nat) :
    (s.dropEntry p start).hold = { s.hold with entries := s.hold.entries.filter fun e => !e.isOf p start } :=
    rfl
@[simp] theorem Sup.dropEntry_lamp (s : Sup) (p : Port) (start : Nat) : (s.dropEntry p start).lamp = s.lamp := rfl
@[simp] theorem Sup.dropEntry_wear (s : Sup) (p : Port) (start : Nat) : (s.dropEntry p start).wear = s.wear := rfl
@[simp] theorem Sup.dropEntry_source (s : Sup) (p : Port) (start : Nat) : (s.dropEntry p start).source = s.source :=
    rfl
@[simp] theorem Sup.dropEntry_seq (s : Sup) (p : Port) (start : Nat) : (s.dropEntry p start).seq = s.seq := rfl
@[simp] theorem Sup.dropEntry_notice (s : Sup) (p : Port) (start : Nat) : (s.dropEntry p start).notice = s.notice :=
    rfl
@[simp] theorem Sup.dropEntry_geo (s : Sup) (p : Port) (start : Nat) : (s.dropEntry p start).geo = s.geo := rfl
@[simp] theorem Sup.dropEntry_room (s : Sup) (p : Port) (start : Nat) : (s.dropEntry p start).room = s.room := rfl
@[simp] theorem Sup.dropEntry_sched (s : Sup) (p : Port) (start : Nat) : (s.dropEntry p start).sched = s.sched := rfl
@[simp] theorem Sup.dropEntry_ring (s : Sup) (p : Port) (start : Nat) : (s.dropEntry p start).ring = s.ring := rfl

/-! ### removeEntry -/

@[simp] theorem Sup.removeEntry_time (s : Sup) (q : Word) : (s.removeEntry q).time = s.time := rfl
@[simp] theorem Sup.removeEntry_ticket (s : Sup) (q : Word) : (s.removeEntry q).ticket = s.ticket := rfl
@[simp] theorem Sup.removeEntry_lines (s : Sup) (q : Word) : (s.removeEntry q).lines = s.lines := rfl
@[simp] theorem Sup.removeEntry_startUp (s : Sup) (q : Word) : (s.removeEntry q).startUp = s.startUp := rfl
@[simp] theorem Sup.removeEntry_charter (s : Sup) (q : Word) : (s.removeEntry q).charter = s.charter := rfl
@[simp] theorem Sup.removeEntry_isFallback (s : Sup) (q : Word) : (s.removeEntry q).isFallback = s.isFallback := rfl
@[simp] theorem Sup.removeEntry_reloading (s : Sup) (q : Word) : (s.removeEntry q).reloading = s.reloading := rfl
@[simp] theorem Sup.removeEntry_admission (s : Sup) (q : Word) : (s.removeEntry q).admission = s.admission := rfl
@[simp] theorem Sup.removeEntry_ports (s : Sup) (q : Word) : (s.removeEntry q).ports = s.ports := rfl
@[simp] theorem Sup.removeEntry_mp (s : Sup) (q : Word) : (s.removeEntry q).mp = s.mp := rfl
@[simp] theorem Sup.removeEntry_lock (s : Sup) (q : Word) : (s.removeEntry q).lock = s.lock := rfl
@[simp] theorem Sup.removeEntry_hold (s : Sup) (q : Word) :
    (s.removeEntry q).hold = { s.hold with entries := s.hold.entries.filter fun e => e.sequence != q } :=
    rfl
@[simp] theorem Sup.removeEntry_lamp (s : Sup) (q : Word) : (s.removeEntry q).lamp = s.lamp := rfl
@[simp] theorem Sup.removeEntry_wear (s : Sup) (q : Word) : (s.removeEntry q).wear = s.wear := rfl
@[simp] theorem Sup.removeEntry_source (s : Sup) (q : Word) : (s.removeEntry q).source = s.source := rfl
@[simp] theorem Sup.removeEntry_seq (s : Sup) (q : Word) : (s.removeEntry q).seq = s.seq := rfl
@[simp] theorem Sup.removeEntry_notice (s : Sup) (q : Word) : (s.removeEntry q).notice = s.notice := rfl
@[simp] theorem Sup.removeEntry_geo (s : Sup) (q : Word) : (s.removeEntry q).geo = s.geo := rfl
@[simp] theorem Sup.removeEntry_room (s : Sup) (q : Word) : (s.removeEntry q).room = s.room := rfl
@[simp] theorem Sup.removeEntry_sched (s : Sup) (q : Word) : (s.removeEntry q).sched = s.sched := rfl
@[simp] theorem Sup.removeEntry_ring (s : Sup) (q : Word) : (s.removeEntry q).ring = s.ring := rfl

/-! ### Reading back -/

@[simp] theorem PerPort.get_set_same {α : Type} (f : PerPort α) (p : Port) (v : α) : (f.set p v).get p = v := by
  cases p <;> rfl

theorem PerPort.get_set_other {α : Type} (f : PerPort α) {p q : Port} (v : α) (h : q ≠ p) :
    (f.set p v).get q = f.get q := by
  cases p <;> cases q <;> first | rfl | exact absurd rfl h

@[simp] theorem PerPort.set_set {α : Type} (f : PerPort α) (p : Port) (v w : α) : (f.set p v).set p w = f.set p w := by
  cases p <;> rfl

@[simp] theorem PerPort.set_get {α : Type} (f : PerPort α) (p : Port) : f.set p (f.get p) = f := by
  cases p <;> rfl

@[simp] theorem PerLamp.get_set_same {α : Type} (f : PerLamp α) (l : Lamp) (v : α) : (f.set l v).get l = v := by
  cases l <;> rfl

theorem PerLamp.get_set_other {α : Type} (f : PerLamp α) {l k : Lamp} (v : α) (h : k ≠ l) :
    (f.set l v).get k = f.get k := by
  cases l <;> cases k <;> first | rfl | exact absurd rfl h

@[simp] theorem PerLamp.set_set {α : Type} (f : PerLamp α) (l : Lamp) (v w : α) : (f.set l v).set l w = f.set l w := by
  cases l <;> rfl

@[simp] theorem PerClaimant.get_set_same {α : Type} (f : PerClaimant α) (c : Claimant) (v : α) :
    (f.set c v).get c = v := by
  cases c <;> rfl

theorem PerClaimant.get_set_other {α : Type} (f : PerClaimant α) {c d : Claimant} (v : α) (h : d ≠ c) :
    (f.set c v).get d = f.get d := by
  cases c <;> cases d <;> first | rfl | exact absurd rfl h

@[simp] theorem AttentionSet.get_set_same (a : AttentionSet) (c : Cause) (v : Bool) : (a.set c v).get c = v := by
  cases c <;> rfl

theorem AttentionSet.get_set_other (a : AttentionSet) {c d : Cause} (v : Bool) (h : d ≠ c) :
    (a.set c v).get d = a.get d := by
  cases c <;> cases d <;> first | rfl | exact absurd rfl h

@[simp] theorem Sup.port_setPort (s : Sup) (p : Port) (c : PortCtl) : (s.setPort p c).port p = c :=
  PerPort.get_set_same _ _ _

theorem Sup.port_setPort_other (s : Sup) {p q : Port} (c : PortCtl) (h : q ≠ p) : (s.setPort p c).port q = s.port q :=
  PerPort.get_set_other _ _ h

@[simp] theorem Corners.build_at (f : Nat → Int) {i : Nat} (h : i < 8) : (Corners.build f).at i = f i := by
  interval_cases i <;> rfl

end Sys2Proof.Machine
end

