-- ==== Sys2Proof/Laws/Frames.lean ====
section
/-! SUPPORT. What each shared operation can change, said once: each `Sup.…View` keeps the part of the state an operation of a
block leaves alone, and a lemma says that the operation does not change that view. A field the view keeps is read off with
`congrArg`. -/

namespace Sys2Proof.Machine

/-- A fixed supervisor, whose parts stand where a view keeps nothing. -/
def blankSup : Sup := State.reset.sup

/-! ### Views -/

/-- Everything but control writes. -/
def Sup.beyondControl (s : Sup) : Sup := { s with mp.control := [] }

/-- Everything but what a block tells others: control writes, reports, the overflow flag, the attention set, tickets. -/
def Sup.beyondTold (s : Sup) : Sup :=
  { s with
    mp := { s.mp with control := [], reports := [] }
    ring := { s.ring with overflow := false, attention := blankSup.ring.attention }
    ticket := 0 }

/-- Everything but what a block tells others and the notices. -/
def Sup.beyondNotices (s : Sup) : Sup := { s.beyondTold with notice := blankSup.notice }

/-- Everything a lamp event leaves alone: of the lamps only the demand is kept. -/
def Sup.beyondLamps (s : Sup) : Sup :=
  { s.beyondNotices with lamp := { blankSup.lamp with demand := s.lamp.demand }, wear := blankSup.wear }

/-- Everything a change of the demand leaves alone. -/
def Sup.beyondDemand (s : Sup) : Sup := { s.beyondNotices with lamp := blankSup.lamp, wear := blankSup.wear }

/-- Everything a resolution leaves alone: the claims, the requested mute and the signals are kept. -/
def Sup.beyondPicture (s : Sup) : Sup :=
  { s.beyondNotices with
    source := { s.source with winner := none, target := .blank, noSignal := false }
    seq := blankSup.seq }

/-- Everything a change of a claim leaves alone. -/
def Sup.beyondClaims (s : Sup) : Sup := { s.beyondNotices with source := blankSup.source, seq := blankSup.seq }

/-- Everything a change of the trim leaves alone. -/
def Sup.beyondGeometry (s : Sup) : Sup := { s.beyondControl with geo := blankSup.geo }

/-! ### Control writes, attention, reports -/

theorem Sup.queueControl_told (s : Sup) (a : Nat) (v : Word) : (s.queueControl a v).beyondTold = s.beyondTold := rfl

theorem Sup.queueControl_control (s : Sup) (a : Nat) (v : Word) :
    (s.queueControl a v).beyondControl = s.beyondControl := rfl

@[simp] theorem Sup.queueMirror_control (s : Sup) (c : WindowClass) (o : Nat) (v : Word) :
    (s.queueMirror c o v).beyondControl = s.beyondControl := by
  unfold Sup.queueMirror
  split <;> rfl

@[simp] theorem Sup.queueStatus_control (s : Sup) (o : Nat) : (s.queueStatus o).beyondControl = s.beyondControl :=
  s.queueMirror_control _ _ _

@[simp] theorem Sup.queueStatuses_control (os : List Nat) (s : Sup) :
    (s.queueStatuses os).beyondControl = s.beyondControl := by
  unfold Sup.queueStatuses
  induction os generalizing s with
  | nil => rfl
  | cons o os ih => exact (ih (s.queueStatus o)).trans (s.queueStatus_control o)

@[simp] theorem Sup.queueRun_control (vs : List Word) (s : Sup) (a : Nat) :
    (s.queueRun a vs).beyondControl = s.beyondControl := by
  induction vs generalizing s a with
  | nil => rfl
  | cons v vs ih => exact (ih (s.queueControl a v) (a + 1)).trans rfl

/-- What leaves all but control writes alone leaves all but what is told alone. -/
theorem Sup.told_of_control {s t : Sup} (h : s.beyondControl = t.beyondControl) : s.beyondTold = t.beyondTold :=
  (congrArg Sup.beyondTold h : s.beyondControl.beyondTold = t.beyondControl.beyondTold)

@[simp] theorem Sup.queueMirror_told (s : Sup) (c : WindowClass) (o : Nat) (v : Word) :
    (s.queueMirror c o v).beyondTold = s.beyondTold := Sup.told_of_control (s.queueMirror_control c o v)

@[simp] theorem Sup.queueStatus_told (s : Sup) (o : Nat) : (s.queueStatus o).beyondTold = s.beyondTold :=
  Sup.told_of_control (s.queueStatus_control o)

@[simp] theorem Sup.queueStatuses_told (os : List Nat) (s : Sup) : (s.queueStatuses os).beyondTold = s.beyondTold :=
  Sup.told_of_control (s.queueStatuses_control os)

@[simp] theorem Sup.queueRun_told (vs : List Word) (s : Sup) (a : Nat) : (s.queueRun a vs).beyondTold = s.beyondTold :=
  Sup.told_of_control (s.queueRun_control vs a)

@[simp] theorem Sup.setAttention_told (s : Sup) (a : AttentionSet) : (s.setAttention a).beyondTold = s.beyondTold := by
  unfold Sup.setAttention
  split
  · rfl
  · exact Sup.queueStatus_told _ _

@[simp] theorem Sup.raise_told (s : Sup) (c : Cause) : (s.raise c).beyondTold = s.beyondTold := s.setAttention_told _

@[simp] theorem Sup.judgeRing_told (s : Sup) : s.judgeRing.beyondTold = s.beyondTold := by
  unfold Sup.judgeRing
  split
  · exact s.setAttention_told _
  · rfl

@[simp] theorem Sup.setOverflow_told (s : Sup) : s.setOverflow.beyondTold = s.beyondTold := by
  unfold Sup.setOverflow
  split
  · rfl
  · exact Sup.queueStatus_told _ _

@[simp] theorem Sup.report_told (s : Sup) (k : ReportKind) (n : Nat) (d : Word) :
    (s.report k n d).beyondTold = s.beyondTold := by
  unfold Sup.report
  split
  · rfl
  · exact s.setOverflow_told

@[simp] theorem Sup.reportPlain_told (s : Sup) (k : ReportKind) (n : Nat) :
    (s.reportPlain k n).beyondTold = s.beyondTold := s.useTicket.report_told _ _ _

/-! ### Notices -/

theorem Sup.notices_of_told {s t : Sup} (h : s.beyondTold = t.beyondTold) : s.beyondNotices = t.beyondNotices :=
  congrArg (fun u : Sup => { u with notice := blankSup.notice }) h

@[simp] theorem Sup.settleStack_notices (s : Sup) : s.settleStack.beyondNotices = s.beyondNotices := rfl

@[simp] theorem Sup.evaluateOverlay_notices (s : Sup) : s.evaluateOverlay.beyondNotices = s.beyondNotices := by
  unfold Sup.evaluateOverlay
  dsimp only
  split
  · rfl
  · exact (Sup.notices_of_told (Sup.queueStatus_told _ _)).trans rfl

@[simp] theorem Sup.settleNotices_notices (s : Sup) : s.settleNotices.beyondNotices = s.beyondNotices :=
  s.settleStack.evaluateOverlay_notices.trans s.settleStack_notices

@[simp] theorem Sup.takeRaise_notices (s : Sup) (k : NoticeKind) : (s.takeRaise k).beyondNotices = s.beyondNotices := by
  unfold Sup.takeRaise
  split
  · rfl
  · split
    · rfl
    · split <;> rfl

@[simp] theorem Sup.raiseNotice_notices (s : Sup) (k : NoticeKind) : (s.raiseNotice k).beyondNotices = s.beyondNotices :=
  (s.takeRaise k).settleNotices_notices.trans (s.takeRaise_notices k)

@[simp] theorem Sup.endNotice_notices (s : Sup) (k : NoticeKind) : (s.endNotice k).beyondNotices = s.beyondNotices :=
  Sup.settleNotices_notices _

@[simp] theorem Sup.takeWinningClass_notices (s : Sup) (c : Option Nat) :
    (s.takeWinningClass c).beyondNotices = s.beyondNotices := Sup.evaluateOverlay_notices _

/-- An expiry changes notices and the crystal only. -/
theorem Sup.expireNotice_notices (s : Sup) (k : NoticeKind) :
    { (s.expireNotice k).beyondNotices with time := s.time } = s.beyondNotices := by
  unfold Sup.expireNotice
  split
  · exact congrArg (fun u : Sup => { u with time := s.time }) (Sup.settleNotices_notices _)
  · rfl

/-! ### Lamps -/

theorem Sup.lamps_of_notices {s t : Sup} (h : s.beyondNotices = t.beyondNotices) : s.beyondLamps = t.beyondLamps :=
  congrArg (fun u : Sup => { u with lamp := { blankSup.lamp with demand := u.lamp.demand }, wear := blankSup.wear }) h

theorem Sup.lamps_of_told {s t : Sup} (h : s.beyondTold = t.beyondTold) : s.beyondLamps = t.beyondLamps :=
  Sup.lamps_of_notices (Sup.notices_of_told h)

@[simp] theorem Sup.setCell_lamps (s : Sup) (l : Lamp) (c : LampCell) : (s.setCell l c).beyondLamps = s.beyondLamps := rfl

@[simp] theorem Sup.setWear_lamps (s : Sup) (l : Lamp) (c : WearCell) : (s.setWear l c).beyondLamps = s.beyondLamps := rfl

@[simp] theorem Sup.queueStatus_lamps (s : Sup) (o : Nat) : (s.queueStatus o).beyondLamps = s.beyondLamps :=
  Sup.lamps_of_told (s.queueStatus_told o)

@[simp] theorem Sup.queueMirror_lamps (s : Sup) (c : WindowClass) (o : Nat) (v : Word) :
    (s.queueMirror c o v).beyondLamps = s.beyondLamps := Sup.lamps_of_told (s.queueMirror_told c o v)

@[simp] theorem Sup.queueRun_lamps (s : Sup) (a : Nat) (vs : List Word) : (s.queueRun a vs).beyondLamps = s.beyondLamps :=
  Sup.lamps_of_told (Sup.queueRun_told vs s a)

@[simp] theorem Sup.report_lamps (s : Sup) (k : ReportKind) (n : Nat) (d : Word) :
    (s.report k n d).beyondLamps = s.beyondLamps := Sup.lamps_of_told (s.report_told k n d)

@[simp] theorem Sup.raise_lamps (s : Sup) (c : Cause) : (s.raise c).beyondLamps = s.beyondLamps :=
  Sup.lamps_of_told (s.raise_told c)

@[simp] theorem Sup.raiseNotice_lamps (s : Sup) (k : NoticeKind) : (s.raiseNotice k).beyondLamps = s.beyondLamps :=
  Sup.lamps_of_notices (s.raiseNotice_notices k)

@[simp] theorem Sup.endNotice_lamps (s : Sup) (k : NoticeKind) : (s.endNotice k).beyondLamps = s.beyondLamps :=
  Sup.lamps_of_notices (s.endNotice_notices k)

@[simp] theorem Sup.setCommand_lamps (s : Sup) (l : Lamp) (v : LightLevel) :
    (s.setCommand l v).beyondLamps = s.beyondLamps := by
  unfold Sup.setCommand
  dsimp only
  split <;> simp

@[simp] theorem Sup.flush_lamps (s : Sup) (l : Lamp) : (s.flush l).beyondLamps = s.beyondLamps := by
  unfold Sup.flush
  dsimp only
  split <;> simp

@[simp] theorem Sup.rewriteShutdown_lamps (s : Sup) : s.rewriteShutdown.beyondLamps = s.beyondLamps := by
  unfold Sup.rewriteShutdown
  exact (Sup.queueRun_lamps _ _ _).trans rfl

@[simp] theorem Sup.setLampState_lamps (s : Sup) (l : Lamp) (st : LampState) :
    (s.setLampState l st).beyondLamps = s.beyondLamps := by
  unfold Sup.setLampState
  simp only [apply_ite Sup.beyondLamps, Sup.queueStatus_lamps, Sup.rewriteShutdown_lamps, Sup.setCell_lamps, ite_self]

@[simp] theorem Sup.judgeNoLamp_lamps (s : Sup) : s.judgeNoLamp.beyondLamps = s.beyondLamps := by
  unfold Sup.judgeNoLamp
  split
  · rfl
  · split
    · simp only [Sup.queueStatus_lamps, Sup.raiseNotice_lamps, Sup.raise_lamps, Sup.report_lamps]; rfl
    · simp only [Sup.queueStatus_lamps, Sup.endNotice_lamps]; rfl

section Decisions

variable {decide : Sup → Sup} (hd : ∀ u, (decide u).beyondLamps = u.beyondLamps)
include hd

theorem Sup.enterStage_lamps (s : Sup) (l : Lamp) (st : LifeStage) :
    (s.enterStage decide l st).beyondLamps = s.beyondLamps := by
  unfold Sup.enterStage
  simp only [apply_ite Sup.beyondLamps, Sup.flush_lamps, hd, Sup.judgeNoLamp_lamps, Sup.queueStatus_lamps,
    Sup.raiseNotice_lamps, Sup.raise_lamps, Sup.report_lamps, Sup.setWear_lamps, ite_self]

theorem Sup.judgeStage_lamps (s : Sup) (l : Lamp) : (s.judgeStage decide l).beyondLamps = s.beyondLamps := by
  unfold Sup.judgeStage
  split
  · exact Sup.enterStage_lamps hd _ _ _
  · exact (Sup.enterStage_lamps hd _ _ _).trans (Sup.enterStage_lamps hd _ _ _)
  · exact Sup.enterStage_lamps hd _ _ _
  · rfl

theorem Sup.strike_lamps (s : Sup) (l : Lamp) : (s.strike decide l).beyondLamps = s.beyondLamps := by
  unfold Sup.strike
  simp only [apply_ite Sup.beyondLamps, Sup.judgeStage_lamps hd, Sup.enterWarming, Sup.setLampState_lamps,
    Sup.setCell_lamps, Sup.setWear_lamps, Sup.report_lamps, Sup.setCommand_lamps, ite_self]

end Decisions

/-- The duty lamp is no part of the view. -/
theorem Sup.duty_lamps (s : Sup) (d : Option Lamp) : { s with lamp.duty := d }.beyondLamps = s.beyondLamps := rfl

theorem Sup.decideDeep_lamps (n : Nat) (s : Sup) : (Sup.decideDeep n s).beyondLamps = s.beyondLamps := by
  induction n generalizing s with
  | zero => rfl
  | succ n ih =>
    unfold Sup.decideDeep
    rw [Sup.judgeNoLamp_lamps]
    split
    · rfl
    · split
      · simp only [apply_ite Sup.beyondLamps, Sup.strike_lamps ih, Sup.duty_lamps, ite_self]
      · dsimp only
        split
        · simp only [apply_ite Sup.beyondLamps, Sup.strike_lamps ih, Sup.duty_lamps, ite_self]
        · rfl

/-- A strike decision changes lamps, wear, notices and what is told; the demand stands. -/
@[simp] theorem Sup.strikeDecision_lamps (s : Sup) : s.strikeDecision.beyondLamps = s.beyondLamps :=
  Sup.decideDeep_lamps 4 s

@[simp] theorem Sup.enterCooling_lamps (s : Sup) (l : Lamp) (m : Bool) :
    (s.enterCooling l m).beyondLamps = s.beyondLamps := by
  unfold Sup.enterCooling
  simp only [Sup.setCommand_lamps, Sup.setLampState_lamps, Sup.setCell_lamps]

@[simp] theorem Sup.takeDown_lamps (s : Sup) (l : Lamp) (st : LampState) :
    (s.takeDown l st).beyondLamps = s.beyondLamps := by
  unfold Sup.takeDown
  simp only [Sup.flush_lamps, Sup.report_lamps, Sup.enterCooling_lamps]

@[simp] theorem Sup.transfer_lamps (s : Sup) (l : Lamp) : (s.transfer l).beyondLamps = s.beyondLamps := by
  unfold Sup.transfer
  split
  · simp only [Sup.raise_lamps, Sup.report_lamps, Sup.duty_lamps]
  · rfl

@[simp] theorem Sup.countFailure_lamps (s : Sup) (l : Lamp) : (s.countFailure l).beyondLamps = s.beyondLamps := by
  unfold Sup.countFailure
  dsimp only
  split <;> simp

@[simp] theorem Sup.countDropout_lamps (s : Sup) (l : Lamp) : (s.countDropout l).beyondLamps = s.beyondLamps := by
  unfold Sup.countDropout
  dsimp only
  split <;> simp

theorem Sup.failAttempt_lamps (s : Sup) (l : Lamp) (k : ReportKind) {count : Sup → Sup}
    (hc : ∀ u, (count u).beyondLamps = u.beyondLamps) : (s.failAttempt l k count).beyondLamps = s.beyondLamps := by
  unfold Sup.failAttempt
  simp only [apply_ite Sup.beyondLamps, Sup.strikeDecision_lamps, Sup.transfer_lamps, Sup.judgeNoLamp_lamps,
    Sup.flush_lamps, hc, Sup.report_lamps, Sup.enterCooling_lamps, Sup.setCell_lamps, ite_self]

@[simp] theorem Sup.strikeTimedOut_lamps (s : Sup) (l : Lamp) : (s.strikeTimedOut l).beyondLamps = s.beyondLamps :=
  s.failAttempt_lamps l _ fun u => u.countFailure_lamps l

/-- A change of LAMPOK changes the line besides. -/
theorem Sup.lampokUp_lamps (s : Sup) (l : Lamp) :
    (s.lampokUp l).beyondLamps = { s with lines.lampok := s.lines.lampok.set l true }.beyondLamps := by
  unfold Sup.lampokUp
  dsimp only
  split
  · simp only [Sup.enterWarming, Sup.setLampState_lamps, Sup.setCell_lamps]
  · rfl

theorem Sup.lampokDown_lamps (s : Sup) (l : Lamp) :
    (s.lampokDown l).beyondLamps = { s with lines.lampok := s.lines.lampok.set l false }.beyondLamps := by
  unfold Sup.lampokDown
  dsimp only
  split
  · exact Sup.failAttempt_lamps _ _ _ fun u => u.countDropout_lamps l
  · exact Sup.failAttempt_lamps _ _ _ fun u => u.countDropout_lamps l
  · rfl

@[simp] theorem Sup.endLampFailed_lamps (s : Sup) : s.endLampFailed.beyondLamps = s.beyondLamps := by
  unfold Sup.endLampFailed
  split <;> simp

@[simp] theorem Sup.cooledDown_lamps (s : Sup) (l : Lamp) : (s.cooledDown l).beyondLamps = s.beyondLamps := by
  unfold Sup.cooledDown
  dsimp only
  split <;>
    simp only [Sup.strikeDecision_lamps, Sup.flush_lamps, Sup.raiseNotice_lamps, Sup.raise_lamps, Sup.report_lamps,
      Sup.setLampState_lamps, Sup.setCell_lamps]

@[simp] theorem Sup.clearLamp_lamps (s : Sup) (l : Lamp) : (s.clearLamp l).beyondLamps = s.beyondLamps := by
  unfold Sup.clearLamp
  dsimp only
  split <;>
    simp only [Sup.strikeDecision_lamps, Sup.endLampFailed_lamps, Sup.report_lamps, Sup.setLampState_lamps,
      Sup.setCell_lamps]

@[simp] theorem Sup.replaceLamp_lamps (s : Sup) (l : Lamp) (w : Word) : (s.replaceLamp l w).beyondLamps = s.beyondLamps := by
  unfold Sup.replaceLamp
  simp only [apply_ite Sup.beyondLamps, Sup.strikeDecision_lamps, Sup.report_lamps, Sup.endNotice_lamps,
    Sup.endLampFailed_lamps, Sup.queueStatus_lamps, Sup.flush_lamps, Sup.setWear_lamps, Sup.setLampState_lamps,
    Sup.setCell_lamps, ite_self]

@[simp] theorem Sup.accrue_lamps (s : Sup) (l : Lamp) (c : LampCell) : (s.accrue l c).beyondLamps = s.beyondLamps := by
  unfold Sup.accrue
  dsimp only
  split
  · split
    · rfl
    · split
      · rfl
      · simp
  · rfl

@[simp] theorem Sup.accrueBoth_lamps (s : Sup) : s.accrueBoth.beyondLamps = s.beyondLamps := by
  unfold Sup.accrueBoth
  simp only [Sup.judgeStage_lamps Sup.strikeDecision_lamps, Sup.accrue_lamps]

/-! ### The demand -/

theorem Sup.demand_of_lamps {s t : Sup} (h : s.beyondLamps = t.beyondLamps) : s.beyondDemand = t.beyondDemand :=
  congrArg (fun u : Sup => { u with lamp := blankSup.lamp }) h

@[simp] theorem Sup.demandOff_lamps (s : Sup) (l : Lamp) : (s.demandOff l).beyondLamps = s.beyondLamps := by
  unfold Sup.demandOff
  split <;> simp

@[simp] theorem Sup.followLevel_lamps (s : Sup) (l : Lamp) : (s.followLevel l).beyondLamps = s.beyondLamps := by
  unfold Sup.followLevel
  split <;> simp

/-- After a setting of the demand, the demand is the level with the uptime as its set time, and nothing but lamps, wear,
notices and what is told has changed. -/
theorem Sup.setDemand_lamps (s : Sup) (v : LightLevel) :
    (s.setDemand v).beyondLamps = { s with lamp.demand := { level := v, setTime := s.room.uptime } }.beyondLamps := by
  unfold Sup.setDemand
  dsimp only
  split
  · rfl
  · split
    · rw [Sup.judgeNoLamp_lamps, Sup.duty_lamps, Sup.demandOff_lamps, Sup.demandOff_lamps, Sup.queueMirror_lamps]
    · split
      · rw [Sup.judgeNoLamp_lamps, Sup.followLevel_lamps, Sup.followLevel_lamps, Sup.queueMirror_lamps]
      · rw [Sup.strikeDecision_lamps, Sup.queueMirror_lamps]

theorem Sup.setDemand_demand (s : Sup) (v : LightLevel) :
    (s.setDemand v).lamp.demand = { level := v, setTime := s.room.uptime } :=
  congrArg (fun u : Sup => u.lamp.demand) (s.setDemand_lamps v)

@[simp] theorem Sup.setDemand_beyond (s : Sup) (v : LightLevel) : (s.setDemand v).beyondDemand = s.beyondDemand :=
  (Sup.demand_of_lamps (s.setDemand_lamps v)).trans rfl

@[simp] theorem Sup.setIfOff_beyond (s : Sup) (v : LightLevel) : (s.setIfOff v).beyondDemand = s.beyondDemand := by
  unfold Sup.setIfOff
  split <;> simp

@[simp] theorem Sup.clearIfUnchanged_beyond (s : Sup) (t : Uptime) :
    (s.clearIfUnchanged t).beyondDemand = s.beyondDemand := by
  unfold Sup.clearIfUnchanged
  split <;> simp

end Sys2Proof.Machine
end

