-- ==== Sys2Proof/Laws/FramesBlocks.lean ====
section
/-! SUPPORT. What the operations of the remaining blocks can change: the source resolver and the switch sequencer, the geometry
unit, the hold table, the port controllers, the lock controller without held writes, and the arbiter's grant. -/

namespace Sys2Proof.Machine

/-! ### Views -/

/-- Everything the hold table leaves alone. -/
def Sup.beyondHold (s : Sup) : Sup :=
  { s.beyondTold with hold := blankSup.hold, mp := { s.mp with control := [], reports := [], releases := [] } }

/-- Everything a port controller's answer leaves alone. -/
def Sup.beyondPorts (s : Sup) : Sup := { s.beyondTold with ports := blankSup.ports }

/-- Everything the traffic of a port that is held or answered leaves alone. -/
def Sup.beyondTraffic (s : Sup) : Sup := { s.beyondHold with ports := blankSup.ports }

/-- Everything a grant leaves alone. -/
def Sup.beyondGrant (s : Sup) : Sup := { s with mp := blankSup.mp, ring := { s.ring with overflow := false } }

/-! ### The picture -/

theorem Sup.picture_of_notices {s t : Sup} (h : s.beyondNotices = t.beyondNotices) :
    s.beyondPicture = t.beyondPicture :=
  congrArg
    (fun u : Sup =>
      { u with source := { u.source with winner := none, target := .blank, noSignal := false }, seq := blankSup.seq })
    h

theorem Sup.picture_of_told {s t : Sup} (h : s.beyondTold = t.beyondTold) : s.beyondPicture = t.beyondPicture :=
  Sup.picture_of_notices (Sup.notices_of_told h)

@[simp] theorem Sup.queueStatus_picture (s : Sup) (o : Nat) : (s.queueStatus o).beyondPicture = s.beyondPicture :=
  Sup.picture_of_told (s.queueStatus_told o)

@[simp] theorem Sup.report_picture (s : Sup) (k : ReportKind) (n : Nat) (d : Word) :
    (s.report k n d).beyondPicture = s.beyondPicture := Sup.picture_of_told (s.report_told k n d)

@[simp] theorem Sup.seq_picture (s : Sup) (q : Sequencer) : { s with seq := q }.beyondPicture = s.beyondPicture := rfl

@[simp] theorem Sup.setLiveMute_picture (s : Sup) (v : Mute) : (s.setLiveMute v).beyondPicture = s.beyondPicture := by
  unfold Sup.setLiveMute
  split <;> simp

@[simp] theorem Sup.setSeqState_picture (s : Sup) (st : SeqState) :
    (s.setSeqState st).beyondPicture = s.beyondPicture := by
  unfold Sup.setSeqState
  split <;> simp

@[simp] theorem Sup.switchSelect_picture (s : Sup) : s.switchSelect.beyondPicture = s.beyondPicture := by
  unfold Sup.switchSelect
  simp

@[simp] theorem Sup.recheckTarget_picture (s : Sup) : s.recheckTarget.beyondPicture = s.beyondPicture := by
  unfold Sup.recheckTarget
  split <;> simp

@[simp] theorem Sup.takeTarget_picture (s : Sup) : s.takeTarget.beyondPicture = s.beyondPicture := by
  unfold Sup.takeTarget
  split
  · simp
  · split <;> simp
  · rfl
  · rfl

@[simp] theorem Sup.tickSequencer_picture (s : Sup) : s.tickSequencer.beyondPicture = s.beyondPicture := by
  unfold Sup.tickSequencer
  split
  · rfl
  · simp only [Sup.setSeqState_picture, Sup.seq_picture, apply_ite Sup.beyondPicture, Sup.switchSelect_picture, ite_self]
  · simp only [Sup.setSeqState_picture, Sup.seq_picture, apply_ite Sup.beyondPicture, Sup.setLiveMute_picture, ite_self]
  · split <;> simp

@[simp] theorem Sup.setWinner_picture (s : Sup) (w : Option Claimant) (t : Select) :
    (s.setWinner w t).beyondPicture = s.beyondPicture := by
  unfold Sup.setWinner
  split
  · rfl
  · simp only [Sup.queueStatus_picture]; rfl

@[simp] theorem Sup.judgeNoSignal_picture (s : Sup) : s.judgeNoSignal.beyondPicture = s.beyondPicture := by
  unfold Sup.judgeNoSignal
  split
  · rfl
  · split
    · exact (Sup.picture_of_notices (Sup.raiseNotice_notices _ _)).trans rfl
    · exact (Sup.picture_of_notices (Sup.endNotice_notices _ _)).trans rfl

@[simp] theorem Sup.handClass_picture (s : Sup) (w : Option Claimant) :
    (s.handClass w).beyondPicture = s.beyondPicture := by
  unfold Sup.handClass
  dsimp only
  split
  · rfl
  · exact Sup.picture_of_notices (Sup.takeWinningClass_notices _ _)

/-- A resolution changes the winner, the target, the NO_SIGNAL condition, the sequencer, notices and what is told. -/
@[simp] theorem Sup.resolve_picture (s : Sup) : s.resolve.beyondPicture = s.beyondPicture := by
  unfold Sup.resolve
  simp only [Sup.judgeNoSignal_picture, Sup.handClass_picture, apply_ite Sup.beyondPicture, Sup.takeTarget_picture,
    Sup.setWinner_picture, ite_self]

theorem Sup.claims_of_picture {s t : Sup} (h : s.beyondPicture = t.beyondPicture) : s.beyondClaims = t.beyondClaims :=
  congrArg (fun u : Sup => { u with source := blankSup.source }) h

/-- A setting of a claim changes that claim, to the word with the uptime as its time, and what a resolution changes. -/
theorem Sup.setClaim_picture (s : Sup) (c : Claimant) (w : ClaimWord) :
    (s.setClaim c w).beyondPicture =
      { s with source.claims := s.source.claims.set c { word := w, time := s.room.uptime } }.beyondPicture := by
  unfold Sup.setClaim
  simp only [Sup.resolve_picture, apply_ite Sup.beyondPicture]
  split
  · rfl
  · exact Sup.picture_of_told (Sup.queueMirror_told _ _ _ _)

@[simp] theorem Sup.setClaim_beyond (s : Sup) (c : Claimant) (w : ClaimWord) :
    (s.setClaim c w).beyondClaims = s.beyondClaims :=
  (Sup.claims_of_picture (s.setClaim_picture c w)).trans rfl

theorem Sup.setClaim_claims (s : Sup) (c : Claimant) (w : ClaimWord) :
    (s.setClaim c w).source.claims = s.source.claims.set c { word := w, time := s.room.uptime } :=
  (congrArg (fun u : Sup => u.source.claims) (s.setClaim_picture c w) :)

/-- A setting of the requested mute changes it and LIVE_MUTE. -/
theorem Sup.setRequestedMute_picture (s : Sup) (v : Mute) :
    (s.setRequestedMute v).beyondPicture = { s with source.requestedMute := v }.beyondPicture := by
  unfold Sup.setRequestedMute
  have h : (if s.source.requestedMute = v then s
      else { s with source.requestedMute := v }.queueMirror .mute 0 (word v.code)).beyondPicture =
      { s with source.requestedMute := v }.beyondPicture := by
    split
    · next e => rw [← e]
    · exact Sup.picture_of_told (Sup.queueMirror_told _ _ _ _)
  dsimp only
  split
  · exact (Sup.setLiveMute_picture _ _).trans h
  · exact (Sup.setLiveMute_picture _ _).trans h
  · exact h
  · exact h

@[simp] theorem Sup.signalSettled_time (s : Sup) (i : Fin 8) :
    { (s.signalSettled i).beyondClaims with time := s.time } = s.beyondClaims := by
  unfold Sup.signalSettled
  dsimp only
  split
  · exact
      (congrArg (fun u : Sup => { u with time := s.time }) (Sup.claims_of_picture (Sup.resolve_picture _))).trans rfl
  · rfl

/-! ### Geometry -/

theorem Sup.geometry_of_control {s t : Sup} (h : s.beyondControl = t.beyondControl) :
    s.beyondGeometry = t.beyondGeometry := congrArg (fun u : Sup => { u with geo := blankSup.geo }) h

@[simp] theorem Sup.geo_geometry (s : Sup) (g : GeometryUnit) : { s with geo := g }.beyondGeometry = s.beyondGeometry := rfl

@[simp] theorem Sup.queueTrim_control (os : List Nat) (s : Sup) : (s.queueTrim os).beyondControl = s.beyondControl := by
  unfold Sup.queueTrim
  induction os generalizing s with
  | nil => rfl
  | cons o os ih => exact (ih _).trans (s.queueMirror_control _ _ _)

@[simp] theorem Sup.setLive_geometry (s : Sup) (c : Corners) : (s.setLive c).beyondGeometry = s.beyondGeometry := by
  unfold Sup.setLive
  exact (Sup.geometry_of_control (Sup.queueStatuses_control _ _)).trans rfl

@[simp] theorem Sup.judgeSlew_geometry (s : Sup) : s.judgeSlew.beyondGeometry = s.beyondGeometry := rfl

@[simp] theorem Sup.retarget_geometry (s : Sup) : s.retarget.beyondGeometry = s.beyondGeometry := rfl

@[simp] theorem Sup.setTrim_geometry (s : Sup) (c : Corners) : (s.setTrim c).beyondGeometry = s.beyondGeometry := by
  unfold Sup.setTrim
  exact (Sup.retarget_geometry _).trans ((Sup.geometry_of_control (Sup.queueTrim_control _ _)).trans rfl)

@[simp] theorem Sup.takePreset_geometry (s : Sup) (n : Nat) : (s.takePreset n).beyondGeometry = s.beyondGeometry := by
  unfold Sup.takePreset
  split <;> simp

/-- A tick of the geometry unit changes the live corners, the slew state and control writes. -/
@[simp] theorem Sup.tickGeometry_geometry (s : Sup) (m : Mute) : (s.tickGeometry m).beyondGeometry = s.beyondGeometry := by
  unfold Sup.tickGeometry
  split <;> simp

/-- After a setting of the trim, the trim is the new one and the target is formed from it. -/
theorem Sup.setTrim_geo (s : Sup) (t : Corners) :
    (s.setTrim t).geo.trim = t ∧ (s.setTrim t).geo.target = targetOf s.geoParams t ∧
      (s.setTrim t).geo.live = s.geo.live := by
  have h : ({ s with geo.trim := t }.queueTrim (s.geo.trim.changed t)).beyondControl = { s with geo.trim := t }.beyondControl :=
    Sup.queueTrim_control _ _
  have hg := (congrArg Sup.geo h :)
  have hc := (congrArg Sup.charter h :)
  have hp : ({ s with geo.trim := t }.queueTrim (s.geo.trim.changed t)).geoParams = s.geoParams := by
    unfold Sup.geoParams Sup.chart
    exact congrArg (fun c : Option Charter => (c.getD fallbackCharter).geometry) hc
  unfold Sup.setTrim Sup.retarget Sup.judgeSlew
  refine ⟨(congrArg GeometryUnit.trim hg :), ?_, (congrArg GeometryUnit.live hg :)⟩
  show targetOf _ _ = _
  rw [hp]
  exact (congrArg (fun g : GeometryUnit => targetOf s.geoParams g.trim) hg :)

/-! ### The hold table -/

theorem Sup.hold_of_told {s t : Sup} (h : s.beyondTold = t.beyondTold) : s.beyondHold = t.beyondHold :=
  congrArg (fun u : Sup => { u with hold := blankSup.hold, mp := { u.mp with control := [], reports := [], releases := [] } }) h

@[simp] theorem Sup.report_hold (s : Sup) (k : ReportKind) (n : Nat) (d : Word) :
    (s.report k n d).beyondHold = s.beyondHold := Sup.hold_of_told (s.report_told k n d)

@[simp] theorem noteHold_told (s t : Sup) : (Sup.noteHold s t).beyondTold = t.beyondTold := by
  unfold Sup.noteHold
  split <;> simp

@[simp] theorem noteHold_hold (s t : Sup) : (Sup.noteHold s t).beyondHold = t.beyondHold :=
  Sup.hold_of_told (noteHold_told s t)

@[simp] theorem Sup.holdWrite_hold (s : Sup) (p : Port) (a : Nat) (d : List Word) (w : Nat) (c : Condition) :
    (s.holdWrite p a d w c).beyondHold = s.beyondHold := (noteHold_hold _ _).trans rfl

@[simp] theorem Sup.supersede_hold (s : Sup) (p : Port) (a : Nat) : (s.supersede p a).beyondHold = s.beyondHold :=
  (noteHold_hold _ _).trans rfl

@[simp] theorem Sup.overtake_hold (s : Sup) (p : Port) (a : Nat) : (s.overtake p a).beyondHold = s.beyondHold :=
  (noteHold_hold _ _).trans rfl

@[simp] theorem Sup.expireEntry_hold (s : Sup) (q : Word) : (s.expireEntry q).beyondHold = s.beyondHold := by
  unfold Sup.expireEntry
  split
  · split
    · exact (Sup.report_hold _ _ _ _).trans ((noteHold_hold _ _).trans rfl)
    · rfl
  · rfl

@[simp] theorem Sup.tearDown_hold (s : Sup) (test : HoldEntry → Bool) : (s.tearDown test).beyondHold = s.beyondHold := by
  unfold Sup.tearDown
  generalize s.hold.entries.filter test = es
  suffices h : ∀ (es : List HoldEntry) (t : Sup),
      (es.foldl (fun t e => t.report .torn (holdSubject e.port e.window) e.sequence) t).beyondHold = t.beyondHold from
    (h es _).trans ((noteHold_hold _ _).trans rfl)
  intro es
  induction es with
  | nil => intro t; rfl
  | cons e es ih => intro t; exact (ih _).trans (Sup.report_hold _ _ _ _)

/-! ### The port controllers -/

theorem Sup.ports_of_told {s t : Sup} (h : s.beyondTold = t.beyondTold) : s.beyondPorts = t.beyondPorts :=
  congrArg (fun u : Sup => { u with ports := blankSup.ports }) h

@[simp] theorem Sup.setPort_ports' (s : Sup) (p : Port) (c : PortCtl) : (s.setPort p c).beyondPorts = s.beyondPorts := rfl

@[simp] theorem Sup.queueStatus_ports (s : Sup) (o : Nat) : (s.queueStatus o).beyondPorts = s.beyondPorts :=
  Sup.ports_of_told (s.queueStatus_told o)

@[simp] theorem Sup.setFaults_ports (s : Sup) (p : Port) (n : Nat) : (s.setFaults p n).beyondPorts = s.beyondPorts := by
  unfold Sup.setFaults
  dsimp only
  split <;> simp

@[simp] theorem Sup.respond_ports (s : Sup) (p : Port) (r : Response) : (s.respond p r).beyondPorts = s.beyondPorts := by
  unfold Sup.respond
  dsimp only
  split <;> simp

@[simp] theorem Sup.countedWait_ports (s : Sup) (p : Port) : (s.countedWait p).beyondPorts = s.beyondPorts := by
  unfold Sup.countedWait
  dsimp only
  split
  · rw [Sup.respond_ports, Sup.ports_of_told (Sup.raise_told _ _), Sup.ports_of_told (Sup.reportPlain_told _ _ _),
      Sup.setPort_ports']
  · rw [Sup.respond_ports, Sup.setPort_ports']

@[simp] theorem Sup.releasePort_ports (s : Sup) (p : Port) : (s.releasePort p).beyondPorts = s.beyondPorts := by
  unfold Sup.releasePort
  split
  · rw [Sup.ports_of_told (Sup.reportPlain_told _ _ _), Sup.queueStatus_ports, Sup.queueStatus_ports, Sup.setPort_ports']
  · simp

/-- What control writes leave of the port controllers. -/
theorem Sup.queueStatus_port (s : Sup) (o : Nat) (p : Port) : (s.queueStatus o).port p = s.port p :=
  (congrArg (fun u : Sup => u.port p) (s.queueStatus_told o) :)

theorem Sup.reportPlain_port (s : Sup) (k : ReportKind) (n : Nat) (p : Port) : (s.reportPlain k n).port p = s.port p :=
  (congrArg (fun u : Sup => u.port p) (s.reportPlain_told k n) :)

theorem Sup.raise_port (s : Sup) (c : Cause) (p : Port) : (s.raise c).port p = s.port p :=
  (congrArg (fun u : Sup => u.port p) (s.raise_told c) :)

theorem Sup.setFaults_port (s : Sup) (p : Port) (n : Nat) : (s.setFaults p n).port p = { s.port p with faults := n } := by
  unfold Sup.setFaults
  dsimp only
  split
  · next h => rw [← h]
  · rw [Sup.queueStatus_port, Sup.port_setPort]

theorem Sup.setFaults_port_other (s : Sup) {p q : Port} (n : Nat) (h : q ≠ p) : (s.setFaults p n).port q = s.port q := by
  unfold Sup.setFaults
  dsimp only
  split
  · rfl
  · rw [Sup.queueStatus_port, Sup.port_setPort_other _ _ h]

/-- The port controller after a DONE: idle, both counts 0 (R3, R9, R12). -/
theorem Sup.respond_done (s : Sup) (p : Port) (data : List Word) :
    (s.respond p (.done data)).port p =
      { s.port p with
        collection := .idle, timer := none, response := some (.done data), waits := 0, faults := 0 } := by
  unfold Sup.respond
  dsimp only
  rw [Sup.setFaults_port, Sup.port_setPort]

/-- The port controller after a DENIED (R3, R12). -/
theorem Sup.respond_denied (s : Sup) (p : Port) (r : DenyReason) :
    (s.respond p (.denied r)).port p =
      { s.port p with collection := .idle, timer := none, response := some (.denied r), waits := 0 } :=
  Sup.port_setPort _ _ _

/-- The port controller after a HELD (R3, R12). -/
theorem Sup.respond_held (s : Sup) (p : Port) :
    (s.respond p .held).port p =
      { s.port p with collection := .idle, timer := none, response := some .held, waits := 0 } :=
  Sup.port_setPort _ _ _

/-- The port controller after an uncounted WAIT (R6). -/
theorem Sup.respond_wait (s : Sup) (p : Port) :
    (s.respond p .wait).port p = { s.port p with collection := .idle, timer := none, response := some .wait } :=
  Sup.port_setPort _ _ _

/-- The port controller after a FAULT (R3, R12). -/
theorem Sup.respond_fault (s : Sup) (p : Port) :
    (s.respond p .fault).port p =
      { s.port p with collection := .idle, timer := none, response := some .fault, waits := 0 } :=
  Sup.port_setPort _ _ _

/-- A response to one port leaves every other port. -/
theorem Sup.respond_other (s : Sup) {p q : Port} (r : Response) (h : q ≠ p) : (s.respond p r).port q = s.port q := by
  unfold Sup.respond
  dsimp only
  split
  · rw [Sup.setFaults_port_other _ _ h, Sup.port_setPort_other _ _ h]
  · rw [Sup.port_setPort_other _ _ h]

/-! ### The lock controller, with no write waiting for the lock -/

/-- With no held write of a condition, no release set of entries of that condition has any. -/
theorem Sup.releaseSet_none {s : Sup} {c : Condition} (h : ∀ e ∈ s.hold.entries, e.condition ≠ c) {test : HoldEntry → Bool}
    (ht : ∀ e, test e = true → e.condition = c) : s.releaseSet test = [] := by
  unfold Sup.releaseSet
  rw [List.filter_eq_nil_iff.2 (fun e he hte => h e he (ht e hte))]
  rfl

/-- With no held write waiting for the lock an announced level releases nothing. -/
theorem Sup.levelRelease_none {s : Sup} (h : ∀ e ∈ s.hold.entries, e.condition ≠ .lock) : s.levelRelease = s := by
  show Sup.releaseLock (24 + 1) s = s
  unfold Sup.releaseLock
  rw [Sup.releaseSet_none h]
  · rfl
  · intro e he
    simp only [Bool.and_eq_true, beq_iff_eq] at he
    exact he.1

/-- With no held write waiting for a lit lamp an announced lit lamp releases nothing. -/
theorem Sup.litRelease_none {s : Sup} (h : ∀ e ∈ s.hold.entries, e.condition ≠ .lit) : s.litRelease = s := by
  unfold Sup.litRelease
  rw [Sup.releaseSet_none h]
  · rfl
  · intro e he
    exact beq_iff_eq.1 he

@[simp] theorem Sup.announceNotices_notices (s : Sup) (old new : LockLevel) :
    (s.announceNotices old new).beyondNotices = s.beyondNotices := by
  have he : ∀ (u : Sup) (l : LockLevel), (u.endLevelNotice l).beyondNotices = u.beyondNotices := by
    intro u l
    unfold Sup.endLevelNotice
    split <;> simp
  have hr : ∀ (u : Sup) (l : LockLevel), (u.raiseLevelNotice l).beyondNotices = u.beyondNotices := by
    intro u l
    unfold Sup.raiseLevelNotice
    split <;> simp
  unfold Sup.announceNotices
  simp only [apply_ite Sup.beyondNotices, he, hr, ite_self]

/-- A recomputation with no write waiting for the lock: the level becomes the highest contribution, and nothing else changes but what a
resolution, the notices and the telling change. -/
theorem Sup.recompute_picture {s : Sup} (h : ∀ e ∈ s.hold.entries, e.condition ≠ .lock) :
    (s.recompute Sup.levelRelease).beyondPicture = { s with lock.level := s.lock.highest }.beyondPicture := by
  unfold Sup.recompute
  dsimp only
  split
  · next e => rw [Sup.queueStatus_picture, e]
  · have hq : (({ s with lock.level := s.lock.highest }.queueStatus 17).report .lockChanged s.lock.highest.code
        (word s.lock.level.code)).hold.entries = s.hold.entries :=
      (congrArg (fun v : Sup => v.hold.entries)
        ((Sup.report_told _ _ _ _).trans (Sup.queueStatus_told _ 17)) :)
    rw [Sup.levelRelease_none (by rw [hq]; exact h), Sup.picture_of_notices (Sup.announceNotices_notices _ _ _),
      Sup.resolve_picture, Sup.report_picture, Sup.queueStatus_picture]

/-! ### The grant -/

theorem Sup.grant_of_told {s t : Sup} (h : s.beyondControl = t.beyondControl) : s.beyondGrant = t.beyondGrant :=
  congrArg (fun u : Sup => { u with mp := blankSup.mp, ring := { u.ring with overflow := false } }) h

theorem Sup.setOverflow_grant (s : Sup) : s.setOverflow.beyondGrant = s.beyondGrant := by
  unfold Sup.setOverflow
  split
  · rfl
  · exact (Sup.grant_of_told (Sup.queueStatus_control _ _)).trans rfl

theorem Sup.begin_grant (s : Sup) (a : Access) : (s.begin a).beyondGrant = s.beyondGrant := rfl

theorem Sup.grantInternal_grant (n : Nat) (s : Sup) : (Sup.grantInternal n s).beyondGrant = s.beyondGrant := by
  induction n generalizing s with
  | zero => rfl
  | succ n ih =>
    unfold Sup.grantInternal
    split
    · rfl
    · split
      · rfl
      · split
        · rfl
        · split
          · split
            · rfl
            · split
              · exact (ih _).trans ((Sup.setOverflow_grant _).trans rfl)
              · rfl
          · rfl

theorem Sup.grantPort_grant (s : Sup) (p : Port) : (s.grantPort p).beyondGrant = s.beyondGrant := by
  unfold Sup.grantPort
  split <;> rfl

theorem Sup.moveFirst_grant (s : Sup) (m : FirstRing) : (s.moveFirst m).beyondGrant = s.beyondGrant := by
  unfold Sup.moveFirst
  split <;> rfl

theorem Sup.moveSecond_grant (s : Sup) (m : SecondRing) : (s.moveSecond m).beyondGrant = s.beyondGrant := by
  unfold Sup.moveSecond
  split <;> rfl

theorem Sup.arbitrate_grant (s : Sup) : s.arbitrate.beyondGrant = s.beyondGrant := by
  unfold Sup.arbitrate
  split
  · rfl
  · rw [Sup.grantInternal_grant, Sup.moveFirst_grant]
  · rw [Sup.grantPort_grant, Sup.moveFirst_grant]
  · rw [Sup.grantPort_grant, Sup.moveFirst_grant]
  · split
    · rw [Sup.grantPort_grant, Sup.moveSecond_grant, Sup.moveFirst_grant]
    · rw [Sup.grantPort_grant, Sup.moveSecond_grant, Sup.moveFirst_grant]
    · rfl

/-- A grant changes the memory port and the overflow flag only. -/
@[simp] theorem Sup.grant_grant (s : Sup) : s.grant.beyondGrant = s.beyondGrant := by
  unfold Sup.grant
  split
  · rfl
  · dsimp only
    split
    · exact s.arbitrate_grant
    · exact (Sup.arbitrate_grant _).trans s.arbitrate_grant

/-- Any part of the state outside the memory port and the report unit is the same after a grant. -/
theorem Sup.grant_keeps {α : Type} (f : Sup → α) (hf : ∀ u, f u.beyondGrant = f u) (s : Sup) : f s.grant = f s := by
  rw [← hf s.grant, Sup.grant_grant, hf]

@[simp] theorem Sup.grant_time (s : Sup) : s.grant.time = s.time := (congrArg Sup.time s.grant_grant :)
@[simp] theorem Sup.grant_ticket (s : Sup) : s.grant.ticket = s.ticket := (congrArg Sup.ticket s.grant_grant :)
@[simp] theorem Sup.grant_lines (s : Sup) : s.grant.lines = s.lines := (congrArg Sup.lines s.grant_grant :)
@[simp] theorem Sup.grant_startUp (s : Sup) : s.grant.startUp = s.startUp := (congrArg Sup.startUp s.grant_grant :)
@[simp] theorem Sup.grant_charter (s : Sup) : s.grant.charter = s.charter := (congrArg Sup.charter s.grant_grant :)
@[simp] theorem Sup.grant_isFallback (s : Sup) : s.grant.isFallback = s.isFallback := (congrArg Sup.isFallback s.grant_grant :)
@[simp] theorem Sup.grant_reloading (s : Sup) : s.grant.reloading = s.reloading := (congrArg Sup.reloading s.grant_grant :)
@[simp] theorem Sup.grant_admission (s : Sup) : s.grant.admission = s.admission := (congrArg Sup.admission s.grant_grant :)
@[simp] theorem Sup.grant_ports (s : Sup) : s.grant.ports = s.ports := (congrArg Sup.ports s.grant_grant :)
@[simp] theorem Sup.grant_lock (s : Sup) : s.grant.lock = s.lock := (congrArg Sup.lock s.grant_grant :)
@[simp] theorem Sup.grant_hold (s : Sup) : s.grant.hold = s.hold := (congrArg Sup.hold s.grant_grant :)
@[simp] theorem Sup.grant_lamp (s : Sup) : s.grant.lamp = s.lamp := (congrArg Sup.lamp s.grant_grant :)
@[simp] theorem Sup.grant_wear (s : Sup) : s.grant.wear = s.wear := (congrArg Sup.wear s.grant_grant :)
@[simp] theorem Sup.grant_source (s : Sup) : s.grant.source = s.source := (congrArg Sup.source s.grant_grant :)
@[simp] theorem Sup.grant_seq (s : Sup) : s.grant.seq = s.seq := (congrArg Sup.seq s.grant_grant :)
@[simp] theorem Sup.grant_notice (s : Sup) : s.grant.notice = s.notice := (congrArg Sup.notice s.grant_grant :)
@[simp] theorem Sup.grant_geo (s : Sup) : s.grant.geo = s.geo := (congrArg Sup.geo s.grant_grant :)
@[simp] theorem Sup.grant_room (s : Sup) : s.grant.room = s.room := (congrArg Sup.room s.grant_grant :)
@[simp] theorem Sup.grant_sched (s : Sup) : s.grant.sched = s.sched := (congrArg Sup.sched s.grant_grant :)
@[simp] theorem Sup.grant_attention (s : Sup) : s.grant.ring.attention = s.ring.attention :=
  (congrArg (fun u : Sup => u.ring.attention) s.grant_grant :)
@[simp] theorem Sup.grant_head (s : Sup) : s.grant.ring.head = s.ring.head :=
  (congrArg (fun u : Sup => u.ring.head) s.grant_grant :)
@[simp] theorem Sup.grant_tail (s : Sup) : s.grant.ring.tail = s.ring.tail :=
  (congrArg (fun u : Sup => u.ring.tail) s.grant_grant :)
@[simp] theorem Sup.grant_unread (s : Sup) : s.grant.ring.unread = s.ring.unread :=
  (congrArg (fun u : Sup => u.ring.unread) s.grant_grant :)

end Sys2Proof.Machine
end

