-- ==== Sys2Proof/Laws/Arbiter.lean ====
section
/-! SUPPORT. What the arbiter's search finds, and what a grant does at once: a busy memory port, no member ready, one member taken. -/

namespace Sys2Proof.Machine

/-- The search of the first ring finds the member that no ready member comes before. -/
theorem Sup.takesFirst.find {s : Sup} {m : FirstRing} (h : s.takesFirst m) : s.mp.first.order.find? s.firstReady = some m := by
  obtain ⟨hm, hn⟩ := h
  have hi := hn .internal
  have hl := hn .lectern
  have hp := hn .panel
  have hg := hn .group
  cases hf : s.mp.first <;> cases m <;>
    simp_all [FirstRing.order, FirstRing.place, List.find?]

/-- The search of the second ring, in the same way. -/
theorem Sup.takesSecond.find {s : Sup} {m : SecondRing} (h : s.takesSecond m) : s.mp.second.order.find? s.secondReady = some m := by
  obtain ⟨hm, hn⟩ := h
  have hc := hn .campus
  have hs := hn .service
  cases hf : s.mp.second <;> cases m <;>
    simp_all [SecondRing.order, SecondRing.place, List.find?]

/-- While an access is in progress nothing is granted (R31). -/
theorem Sup.grant_busy {s : Sup} (h : s.mp.access.isSome = true) : s.grant = s := by
  unfold Sup.grant
  rw [if_pos h]

/-- A free memory port grants what one arbitration takes. -/
theorem Sup.grant_free {s : Sup} (h : s.mp.access = none) (ht : s.arbitrate.mp.access.isSome = true) : s.grant = s.arbitrate := by
  unfold Sup.grant
  rw [h]
  simp [ht]

@[simp] theorem Sup.moveFirst_mp (s : Sup) (m : FirstRing) : (s.moveFirst m).mp = s.pastFirst m := by
  unfold Sup.moveFirst Sup.pastFirst
  split <;> rfl

end Sys2Proof.Machine
end

