-- ==== Sys2Proof/Laws/Memory.lean ====
section
/-! SUPPORT. Parameter memory: every operation keeps the canonical form, a written word reads back, and every other word reads
as before. -/

namespace Sys2Proof.Machine

/-! ### The list of words -/

/-- Every address of a list lies above a bound. -/
def cellsAbove (x : Nat) (cs : List (Nat × Word)) : Prop := ∀ e ∈ cs, x < e.1

theorem cellsWf_cons {a : Nat} {v : Word} {cs : List (Nat × Word)} :
    cellsWf ((a, v) :: cs) = true ↔ v ≠ 0 ∧ a < Config.memoryWords ∧ cellsAbove a cs ∧ cellsWf cs = true := by
  induction cs generalizing a v with
  | nil => simp [cellsWf, cellsAbove]
  | cons e cs ih =>
    obtain ⟨b, w⟩ := e
    constructor
    · intro h
      simp only [cellsWf, Bool.and_eq_true, bne_iff_ne, decide_eq_true_eq] at h
      obtain ⟨⟨⟨hv, ha⟩, hab⟩, hrest⟩ := h
      have hrest' : cellsWf ((b, w) :: cs) = true := by
        simp only [cellsWf, Bool.and_eq_true, bne_iff_ne, decide_eq_true_eq]; exact hrest
      have hb := (ih (a := b) (v := w)).1 hrest'
      refine ⟨hv, ha, ?_, hrest'⟩
      intro e he
      rcases List.mem_cons.1 he with rfl | he
      · exact hab
      · exact Nat.lt_trans hab (hb.2.2.1 e he)
    · rintro ⟨hv, ha, hab, hrest⟩
      have hb : a < b := hab (b, w) (List.mem_cons_self ..)
      simp only [cellsWf, Bool.and_eq_true, bne_iff_ne, decide_eq_true_eq] at hrest ⊢
      exact ⟨⟨⟨hv, ha⟩, hb⟩, hrest⟩

theorem cellsAbove_write {b x : Nat} {v : Word} {cs : List (Nat × Word)} (h : cellsAbove b cs) (hx : b < x) :
    cellsAbove b (cellsWrite cs x v) := by
  induction cs with
  | nil =>
    unfold cellsWrite
    split
    · exact h
    · intro e he
      rcases List.mem_singleton.1 he with rfl
      exact hx
  | cons c cs ih =>
    obtain ⟨a, u⟩ := c
    have ha : b < a := h (a, u) (List.mem_cons_self ..)
    have hcs : cellsAbove b cs := fun e he => h e (List.mem_cons_of_mem _ he)
    have hcons : ∀ {p : Nat × Word} {l}, b < p.1 → cellsAbove b l → cellsAbove b (p :: l) := by
      intro p l hp hl e he
      rcases List.mem_cons.1 he with rfl | he
      · exact hp
      · exact hl e he
    unfold cellsWrite
    split
    · split
      · exact h
      · exact hcons hx h
    · split
      · split
        · exact hcs
        · exact hcons hx hcs
      · exact hcons ha (ih hcs)

theorem cellsWf_write {x : Nat} {v : Word} (hx : x < Config.memoryWords) :
    ∀ {cs : List (Nat × Word)}, cellsWf cs = true → cellsWf (cellsWrite cs x v) = true
  | [], _ => by
    unfold cellsWrite
    split
    · rfl
    · next hv => exact cellsWf_cons.2 ⟨hv, hx, (fun _ he => absurd he List.not_mem_nil), rfl⟩
  | (a, u) :: cs, h => by
    have hc := cellsWf_cons.1 h
    unfold cellsWrite
    split
    · next hlt =>
      split
      · exact h
      · next hv =>
        refine cellsWf_cons.2 ⟨hv, hx, ?_, h⟩
        intro e he
        rcases List.mem_cons.1 he with rfl | he
        · exact hlt
        · exact Nat.lt_trans hlt (hc.2.2.1 e he)
    · split
      · next heq =>
        split
        · exact hc.2.2.2
        · next hv => exact cellsWf_cons.2 ⟨hv, hx, heq ▸ hc.2.2.1, hc.2.2.2⟩
      · next hge hne =>
        have hax : a < x := by omega
        exact cellsWf_cons.2 ⟨hc.1, hc.2.1, cellsAbove_write hc.2.2.1 hax, cellsWf_write hx hc.2.2.2⟩

theorem cellsRead_above {x : Nat} {cs : List (Nat × Word)} (h : cellsAbove x cs) : cellsRead cs x = 0 := by
  induction cs with
  | nil => rfl
  | cons c cs ih =>
    obtain ⟨a, u⟩ := c
    have ha : x < a := h (a, u) (List.mem_cons_self ..)
    unfold cellsRead
    rw [if_neg (by omega)]
    exact ih fun e he => h e (List.mem_cons_of_mem _ he)

/-- A written word reads back. -/
theorem cellsRead_write_same {x : Nat} {v : Word} :
    ∀ {cs : List (Nat × Word)}, cellsWf cs = true → cellsRead (cellsWrite cs x v) x = v
  | [], _ => by
    unfold cellsWrite
    split
    · next hv => exact hv.symm
    · exact if_pos rfl
  | (a, u) :: cs, h => by
    have hc := cellsWf_cons.1 h
    unfold cellsWrite
    split
    · next hlt =>
      split
      · next hv =>
        refine (cellsRead_above ?_).trans hv.symm
        intro e he
        rcases List.mem_cons.1 he with rfl | he
        · exact hlt
        · exact Nat.lt_trans hlt (hc.2.2.1 e he)
      · exact if_pos rfl
    · split
      · next heq =>
        split
        · next hv => exact (cellsRead_above (heq ▸ hc.2.2.1)).trans hv.symm
        · exact if_pos rfl
      · next hne =>
        unfold cellsRead
        rw [if_neg (Ne.symm hne)]
        exact cellsRead_write_same hc.2.2.2

/-- Every other word reads as before. -/
theorem cellsRead_write_other {x y : Nat} {v : Word} (hxy : y ≠ x) :
    ∀ {cs : List (Nat × Word)}, cellsRead (cellsWrite cs x v) y = cellsRead cs y
  | [] => by
    unfold cellsWrite
    split
    · rfl
    · exact if_neg (Ne.symm hxy)
  | (a, u) :: cs => by
    unfold cellsWrite
    split
    · split
      · rfl
      · exact if_neg (Ne.symm hxy)
    · split
      · next heq =>
        have hay : a ≠ y := fun h => hxy (h.symm.trans heq.symm)
        split
        · exact (if_neg hay).symm
        · exact (if_neg (Ne.symm hxy)).trans (if_neg hay).symm
      · unfold cellsRead
        split
        · rfl
        · exact cellsRead_write_other hxy

/-! ### The list of bad words -/

theorem addressesWf_cons {a : Nat} {as : List Nat} :
    addressesWf (a :: as) = true ↔ a < Config.memoryWords ∧ (∀ b ∈ as, a < b) ∧ addressesWf as = true := by
  induction as generalizing a with
  | nil => simp [addressesWf]
  | cons b as ih =>
    constructor
    · intro h
      simp only [addressesWf, Bool.and_eq_true, decide_eq_true_eq] at h
      obtain ⟨⟨ha, hab⟩, hrest⟩ := h
      have hrest' : addressesWf (b :: as) = true := by
        simp only [addressesWf, Bool.and_eq_true, decide_eq_true_eq]; exact hrest
      have hb := (ih (a := b)).1 hrest'
      refine ⟨ha, ?_, hrest'⟩
      intro c hc
      rcases List.mem_cons.1 hc with rfl | hc
      · exact hab
      · exact Nat.lt_trans hab (hb.2.1 c hc)
    · rintro ⟨ha, hab, hrest⟩
      have hb : a < b := hab b (List.mem_cons_self ..)
      simp only [addressesWf, Bool.and_eq_true, decide_eq_true_eq] at hrest ⊢
      exact ⟨⟨ha, hb⟩, hrest⟩

theorem mem_addressErase {x b : Nat} : ∀ {as : List Nat}, b ∈ addressErase as x → b ∈ as
  | [], h => h
  | a :: as, h => by
    unfold addressErase at h
    split at h
    · exact List.mem_cons_of_mem _ h
    · rcases List.mem_cons.1 h with rfl | h
      · exact List.mem_cons_self ..
      · exact List.mem_cons_of_mem _ (mem_addressErase h)

theorem addressesWf_erase {x : Nat} : ∀ {as : List Nat}, addressesWf as = true → addressesWf (addressErase as x) = true
  | [], _ => rfl
  | a :: as, h => by
    have hc := addressesWf_cons.1 h
    unfold addressErase
    split
    · exact hc.2.2
    · exact addressesWf_cons.2 ⟨hc.1, fun b hb => hc.2.1 b (mem_addressErase hb), addressesWf_erase hc.2.2⟩

theorem mem_addressInsert {x b : Nat} : ∀ {as : List Nat}, b ∈ addressInsert as x ↔ b = x ∨ b ∈ as
  | [] => by simp [addressInsert]
  | a :: as => by
    unfold addressInsert
    split
    · exact List.mem_cons
    · split
      · next h =>
        subst h
        exact ⟨Or.inr, fun h => h.elim (fun e => e ▸ List.mem_cons_self ..) id⟩
      · rw [List.mem_cons, mem_addressInsert, List.mem_cons]
        exact ⟨fun h => h.elim (Or.inr ∘ Or.inl) fun h => h.elim Or.inl (Or.inr ∘ Or.inr),
          fun h => h.elim (Or.inr ∘ Or.inl) fun h => h.elim Or.inl (Or.inr ∘ Or.inr)⟩

theorem addressesWf_insert {x : Nat} (hx : x < Config.memoryWords) :
    ∀ {as : List Nat}, addressesWf as = true → addressesWf (addressInsert as x) = true
  | [], _ => addressesWf_cons.2 ⟨hx, (fun _ h => absurd h List.not_mem_nil), rfl⟩
  | a :: as, h => by
    have hc := addressesWf_cons.1 h
    unfold addressInsert
    split
    · next hlt =>
      refine addressesWf_cons.2 ⟨hx, ?_, h⟩
      intro b hb
      rcases List.mem_cons.1 hb with rfl | hb
      · exact hlt
      · exact Nat.lt_trans hlt (hc.2.1 b hb)
    · split
      · exact h
      · next hge hne =>
        refine addressesWf_cons.2 ⟨hc.1, ?_, addressesWf_insert hx hc.2.2⟩
        intro b hb
        rcases mem_addressInsert.1 hb with rfl | hb
        · omega
        · exact hc.2.1 b hb

/-! ### The operations -/

/-- A write keeps the canonical form. -/
theorem Memory.write_wf {m : Memory} (h : m.wf = true) (a : Nat) (v : Word) : (m.write a v).wf = true := by
  unfold Memory.write
  split
  · next ha =>
    have h' := Bool.and_eq_true_iff.1 h
    exact Bool.and_eq_true_iff.2 ⟨cellsWf_write ha h'.1, addressesWf_erase h'.2⟩
  · exact h

/-- A write of a run keeps the canonical form. -/
theorem Memory.writeRun_wf : ∀ (vs : List Word) {m : Memory} (a : Nat), m.wf = true → (m.writeRun a vs).wf = true
  | [], _, _, h => h
  | v :: vs, _, a, h => Memory.writeRun_wf vs (a + 1) (Memory.write_wf h a v)

/-- A word found failing keeps the canonical form. -/
theorem Memory.spoil_wf {m : Memory} (h : m.wf = true) (a : Nat) : (m.spoil a).wf = true := by
  unfold Memory.spoil
  split
  · next ha =>
    have h' := Bool.and_eq_true_iff.1 h
    exact Bool.and_eq_true_iff.2 ⟨h'.1, addressesWf_insert ha h'.2⟩
  · exact h

theorem Memory.spoilAll_wf : ∀ (as : List Nat) {m : Memory}, m.wf = true → (as.foldl Memory.spoil m).wf = true
  | [], _, h => h
  | a :: as, _, h => Memory.spoilAll_wf as (Memory.spoil_wf h a)

/-- A written word reads back. -/
theorem Memory.read_write_same {m : Memory} (h : m.wf = true) {a : Nat} (ha : a < Config.memoryWords) (v : Word) :
    (m.write a v).read a = v := by
  unfold Memory.write
  rw [if_pos ha]
  exact cellsRead_write_same (Bool.and_eq_true_iff.1 h).1

/-- Every other word reads as before. -/
theorem Memory.read_write_other (m : Memory) {a b : Nat} (v : Word) (h : b ≠ a) : (m.write a v).read b = m.read b := by
  unfold Memory.write
  split
  · exact cellsRead_write_other h
  · rfl

/-- A write of a run leaves every word outside the run. -/
theorem Memory.read_writeRun_other : ∀ (vs : List Word) (m : Memory) (a : Nat) {b : Nat},
    (b < a ∨ a + vs.length ≤ b) → (m.writeRun a vs).read b = m.read b
  | [], _, _, _, _ => rfl
  | v :: vs, m, a, b, h => by
    have hl : (v :: vs).length = vs.length + 1 := rfl
    have h1 : b ≠ a := by omega
    exact (Memory.read_writeRun_other vs (m.write a v) (a + 1) (by omega)).trans (Memory.read_write_other m v h1)

/-- A run just written reads back, word by word. -/
theorem Memory.read_writeRun_at : ∀ (vs : List Word) {m : Memory} (a : Nat) {k : Nat} (hk : k < vs.length),
    m.wf = true → a + vs.length ≤ Config.memoryWords → (m.writeRun a vs).read (a + k) = vs[k]
  | [], _, _, _, hk, _, _ => absurd hk (Nat.not_lt_zero _)
  | v :: vs, m, a, 0, _, h, hin => by
    have hl : (v :: vs).length = vs.length + 1 := rfl
    exact (Memory.read_writeRun_other vs (m.write a v) (a + 1) (by omega)).trans
      (Memory.read_write_same h (by omega) v)
  | v :: vs, m, a, k + 1, hk, h, hin => by
    have hl : (v :: vs).length = vs.length + 1 := rfl
    have e : a + (k + 1) = a + 1 + k := by omega
    rw [e]
    exact Memory.read_writeRun_at vs (a + 1) (by omega) (Memory.write_wf h a v) (by omega)

/-- A word found failing changes no word. -/
theorem Memory.read_spoil (m : Memory) (a b : Nat) : (m.spoil a).read b = m.read b := by
  unfold Memory.spoil
  split <;> rfl

theorem Memory.read_spoilAll : ∀ (as : List Nat) (m : Memory) (b : Nat), (as.foldl Memory.spoil m).read b = m.read b
  | [], _, _ => rfl
  | a :: as, m, b => (Memory.read_spoilAll as (m.spoil a) b).trans (Memory.read_spoil m a b)

/-- The words an access touches as a write: none for a read. -/
theorem Access.effect_read (m : Memory) (failing : List Nat) (a : Access) {b : Nat}
    (h : ∀ start vs, a.writes = some (start, vs) → b < start ∨ start + vs.length ≤ b) :
    (a.effect m failing).read b = m.read b := by
  match a, h with
  | .port _ (.read _ _ _), _ => exact Memory.read_spoilAll _ _ _
  | .piece _ _ _, _ => exact Memory.read_spoilAll _ _ _
  | .port _ (.write start beats), h => exact Memory.read_writeRun_other beats m start (h start beats rfl)
  | .control x v, h =>
    have := h x [v] rfl
    exact Memory.read_write_other m v (by simp only [List.length_singleton] at this; omega)
  | .release item, h => exact Memory.read_writeRun_other item.data m item.start (h _ _ rfl)
  | .record start r, h => exact Memory.read_writeRun_other (reportWords r) m start (h _ _ rfl)
  | .lostRecord start r, h => exact Memory.read_writeRun_other (reportWords r) m start (h _ _ rfl)

/-- An access keeps the canonical form. -/
theorem Access.effect_wf {m : Memory} (h : m.wf = true) (failing : List Nat) (a : Access) :
    (a.effect m failing).wf = true := by
  match a with
  | .port _ (.read _ _ _) => exact Memory.spoilAll_wf _ h
  | .piece _ _ _ => exact Memory.spoilAll_wf _ h
  | .port _ (.write start beats) => exact Memory.writeRun_wf beats start h
  | .control x v => exact Memory.write_wf h x v
  | .release item => exact Memory.writeRun_wf item.data item.start h
  | .record start r => exact Memory.writeRun_wf (reportWords r) start h
  | .lostRecord start r => exact Memory.writeRun_wf (reportWords r) start h

/-- An abandoned access keeps the canonical form. -/
theorem Memory.abandon_wf {m : Memory} (h : m.wf = true) (ticket : Nat) (a : Option Access) :
    (m.abandon ticket a).wf = true := by
  unfold Memory.abandon
  split
  · split
    · exact Memory.writeRun_wf _ _ h
    · exact h
  · exact h

end Sys2Proof.Machine
end

