-- ==== Sys2Proof/Laws/Queue.lean ====
section
/-! SUPPORT. What a control write joining the control queue does to the queue (R36), to what is queued, and to a run of words; and what
the operations of the notice stack do to their lists (R147, R150). -/

namespace Sys2Proof.Machine

/-! ### A control write joins the queue -/

theorem mem_coalesce_self (q : List (Nat × Word)) (a : Nat) (v : Word) : (a, v) ∈ coalesce q a v := by
  induction q with
  | nil => exact List.mem_singleton_self _
  | cons e rest ih =>
    obtain ⟨b, u⟩ := e
    by_cases h : b = a
    · subst h
      simp [coalesce]
    · simp [coalesce, h, ih]

theorem mem_coalesce_of_ne {q : List (Nat × Word)} {a b : Nat} (v w : Word) (h : b ≠ a) : (b, w) ∈ coalesce q a v ↔ (b, w) ∈ q := by
  induction q with
  | nil => simp [coalesce, h]
  | cons e rest ih =>
    obtain ⟨c, u⟩ := e
    by_cases hc : c = a
    · subst hc
      simp [coalesce, h]
    · simp [coalesce, hc, ih]

/-- The addresses of the queue: as they were, with a new one at the tail. -/
theorem coalesce_addresses (q : List (Nat × Word)) (a : Nat) (v : Word) :
    (coalesce q a v).map (·.1) = if a ∈ q.map (·.1) then q.map (·.1) else q.map (·.1) ++ [a] := by
  induction q with
  | nil => simp [coalesce]
  | cons e rest ih =>
    obtain ⟨b, u⟩ := e
    by_cases h : b = a
    · subst h
      simp [coalesce]
    · have h' : a ≠ b := fun e => h e.symm
      by_cases hm : a ∈ rest.map (·.1) <;> simp_all [coalesce]

/-- A queue of distinct addresses stays one. -/
theorem coalesce_nodup {q : List (Nat × Word)} (a : Nat) (v : Word) (h : (q.map (·.1)).Nodup) :
    ((coalesce q a v).map (·.1)).Nodup := by
  rw [coalesce_addresses]
  split
  · exact h
  · rename_i hm
    exact List.nodup_append.mpr ⟨h, List.nodup_singleton a, fun x hx y hy e => hm (by
      rw [List.mem_singleton] at hy
      exact hy ▸ e ▸ hx)⟩

theorem Sup.queueControl_nodup {s : Sup} (a : Nat) (v : Word) (h : (s.mp.control.map (·.1)).Nodup) :
    ((s.queueControl a v).mp.control.map (·.1)).Nodup := coalesce_nodup a v h

theorem Sup.queueControl_queued (s : Sup) (a : Nat) (v : Word) : (s.queueControl a v).queued a v := Or.inl (mem_coalesce_self _ _ _)

/-- What is queued for another address stays so. -/
theorem Sup.queueControl_queued_of_ne {s : Sup} {a b : Nat} (v w : Word) (h : b ≠ a) :
    (s.queueControl a v).queued b w ↔ s.queued b w := by
  simp [Sup.queued, mem_coalesce_of_ne v w h]

/-! ### A run of control writes -/

theorem Sup.queueRun_nodup {s : Sup} (a : Nat) (vs : List Word) (h : (s.mp.control.map (·.1)).Nodup) :
    ((s.queueRun a vs).mp.control.map (·.1)).Nodup := by
  induction vs generalizing s a with
  | nil => exact h
  | cons v vs ih => exact ih (a + 1) (s.queueControl_nodup a v h)

/-- An address that the run does not reach is queued as it was. -/
theorem Sup.queueRun_queued_of_outside {s : Sup} {a b : Nat} (vs : List Word) (w : Word) (h : b < a ∨ a + vs.length ≤ b) :
    (s.queueRun a vs).queued b w ↔ s.queued b w := by
  induction vs generalizing s a with
  | nil => exact Iff.rfl
  | cons v vs ih =>
    rw [List.length_cons] at h
    have hb : b ≠ a := by omega
    exact (ih (by omega)).trans (s.queueControl_queued_of_ne v w hb)

/-- Every word of the run is queued at its address. -/
theorem Sup.queueRun_queued {s : Sup} (a k : Nat) (vs : List Word) (h : k < vs.length) :
    (s.queueRun a vs).queued (a + k) (vs.getD k 0) := by
  induction vs generalizing s a k with
  | nil => exact absurd h (Nat.not_lt_zero k)
  | cons v vs ih =>
    cases k with
    | zero => exact ((s.queueControl a v).queueRun_queued_of_outside vs v (Or.inl (Nat.lt_succ_self a))).mpr (s.queueControl_queued a v)
    | succ k =>
      have hk := ih (s := s.queueControl a v) (a + 1) k (Nat.lt_of_succ_lt_succ h)
      rw [Nat.add_right_comm] at hk
      exact hk

/-- A run changes the control queue alone. -/
theorem Sup.queueRun_eq (s : Sup) (a : Nat) (vs : List Word) :
    s.queueRun a vs = { s with mp := { s.mp with control := (s.queueRun a vs).mp.control } } := by
  induction vs generalizing s a with
  | nil => rfl
  | cons v vs ih =>
    conv_lhs => rw [Sup.queueRun, ih (s.queueControl a v) (a + 1)]
    rfl

/-! ### The notice stack's lists -/

theorem mem_pendingInsert (p : List NoticeKind) (k j : NoticeKind) : j ∈ pendingInsert p k ↔ j = k ∨ j ∈ p := by
  induction p with
  | nil => simp [pendingInsert]
  | cons i rest ih =>
    by_cases h : k.code < i.code
    · simp [pendingInsert, h]
    · by_cases e : k = i
      · subst e
        simp [pendingInsert]
      · simp only [pendingInsert, h, e, if_false, List.mem_cons, ih]
        tauto

theorem NoticeKind.code_injective {i j : NoticeKind} (h : i.code = j.code) : i = j := by
  cases i <;> cases j <;> first | rfl | exact absurd h (by decide)

/-- The pending set stays in code order. -/
theorem pendingInsert_sorted {p : List NoticeKind} (k : NoticeKind) (h : p.Pairwise fun i j => i.code < j.code) :
    (pendingInsert p k).Pairwise fun i j => i.code < j.code := by
  induction p with
  | nil => exact List.pairwise_singleton _ _
  | cons i rest ih =>
    obtain ⟨hi, hr⟩ := List.pairwise_cons.mp h
    by_cases hk : k.code < i.code
    · simp only [pendingInsert, hk, if_true]
      exact List.pairwise_cons.mpr ⟨fun j hj => (List.mem_cons.mp hj).elim (· ▸ hk) fun hj => hk.trans (hi j hj), h⟩
    · by_cases e : k = i
      · subst e
        simpa [pendingInsert] using h
      · simp only [pendingInsert, hk, e, if_false]
        refine List.pairwise_cons.mpr ⟨fun j hj => ?_, ih hr⟩
        rcases (mem_pendingInsert rest k j).mp hj with rfl | hj
        · exact lt_of_le_of_ne (Nat.le_of_not_lt hk) fun h => e (NoticeKind.code_injective h.symm)
        · exact hi j hj

/-- The pops take dead entries from the top and stop at a live one. -/
theorem popDead_spec (stack : List NoticeEntry) :
    ∃ dead, stack = popDead stack ++ dead ∧ (∀ e ∈ dead, e.live = false) ∧ ∀ e, (popDead stack).getLast? = some e → e.live = true := by
  refine ⟨(stack.reverse.takeWhile fun e => !e.live).reverse, ?_, fun e he => ?_, fun e he => ?_⟩
  · rw [popDead, ← List.reverse_append, List.takeWhile_append_dropWhile, List.reverse_reverse]
  · have h := List.mem_takeWhile_imp (List.mem_reverse.mp he)
    simpa using h
  · rw [popDead, List.getLast?_reverse] at he
    have h := List.head?_dropWhile_not (fun e : NoticeEntry => !e.live) stack.reverse
    rw [he] at h
    simpa using h

end Sys2Proof.Machine
end

