-- ==== Sys2Proof/Laws/Release.lean ====
section
/-! SUPPORT. What the making, the removal and the release of a hold entry do to the table, each said once. -/

namespace Sys2Proof.Machine

@[simp] theorem Sup.addEntry_made (s : Sup) (p : Port) (a : Nat) (d : List Word) (w : Nat) (c : Condition) :
    (s.addEntry p a d w c).hold.made = s.hold.made + 1 := rfl

@[simp] theorem Sup.addEntry_entries (s : Sup) (p : Port) (a : Nat) (d : List Word) (w : Nat) (c : Condition) :
    (s.addEntry p a d w c).hold.entries =
      s.hold.entries ++
        [{ port := p, start := a, data := d, window := w, condition := c, time := s.room.uptime
           sequence := s.hold.counter, serial := s.hold.made }] := rfl

/-! ### Serials -/

/-- Entries that leave, at any position, leave the others in order. -/
theorem HoldTable.inOrder.filter {h : HoldTable} (hh : h.inOrder) (test : HoldEntry → Bool) :
    HoldTable.inOrder { h with entries := h.entries.filter test } :=
  ⟨hh.1.sublist (List.filter_sublist.map _), fun e he => hh.2 e (List.mem_filter.1 he).1⟩

/-- An entry made takes its place after all others. -/
theorem HoldTable.inOrder.addEntry {s : Sup} (hh : s.hold.inOrder) (p : Port) (a : Nat) (d : List Word) (w : Nat) (c : Condition) :
    (s.addEntry p a d w c).hold.inOrder := by
  refine ⟨?_, ?_⟩
  · rw [Sup.addEntry_entries, List.map_append, List.pairwise_append]
    refine ⟨hh.1, List.pairwise_singleton _ _, fun x hx y hy => ?_⟩
    obtain ⟨e, he, rfl⟩ := List.mem_map.1 hx
    rw [List.mem_singleton.1 hy]
    exact hh.2 e he
  · intro e he
    rw [Sup.addEntry_made]
    rw [Sup.addEntry_entries, List.mem_append] at he
    rcases he with he | he
    · exact Nat.lt_succ_of_lt (hh.2 e he)
    · rw [List.mem_singleton.1 he]
      exact Nat.lt_succ_self _

/-! ### One entry released (R65) -/

/-- An entry that has left the table is passed over. -/
theorem Sup.releaseEntry_gone (release : Sup → Sup) {s : Sup} {n : Nat} (h : ∀ e ∈ s.hold.entries, e.serial ≠ n) :
    s.releaseEntry release n = s := by
  have hn : s.entryMade n = none := List.find?_eq_none.2 fun e he => by simpa using h e he
  unfold Sup.releaseEntry
  rw [hn]

theorem Sup.releaseEntry_denied (release : Sup → Sup) {s : Sup} {n : Nat} {e : HoldEntry} {r : DenyReason}
    (h : s.entryMade n = some e) (hc : s.classify e.port e.start e.data = .denied r) :
    s.releaseEntry release n =
      (s.noteHold (s.removeEntry e.sequence)).report .releaseDenied (holdSubject e.port e.window) (word r.code) := by
  unfold Sup.releaseEntry
  rw [h]
  dsimp only
  rw [hc]

theorem Sup.releaseEntry_offered (release : Sup → Sup) {s : Sup} {n w : Nat} {e : HoldEntry} {c : Condition}
    (h : s.entryMade n = some e) (hc : s.classify e.port e.start e.data = .offered c w) :
    s.releaseEntry release n = s.noteHold ((s.removeEntry e.sequence).addEntry e.port e.start e.data w c) := by
  unfold Sup.releaseEntry
  rw [h]
  dsimp only
  rw [hc]

theorem Sup.releaseEntry_applied (release : Sup → Sup) {s : Sup} {n : Nat} {e : HoldEntry} {c : Course}
    (h : s.entryMade n = some e) (hc : s.classify e.port e.start e.data = .applied c) :
    s.releaseEntry release n = s.applyReleased release e c := by
  unfold Sup.releaseEntry
  rw [h]
  dsimp only
  rw [hc]

end Sys2Proof.Machine
end

