-- ==== Sys2Proof/Laws/Traffic.lean ====
section
/-! SUPPORT. A whole write at a listening port: what is left of its header and beats when its last beat has been taken, and what
each outcome of its classification makes of it. -/

namespace Sys2Proof.Machine

/-- The supervisor when the last of `n` beats of a whole write has been taken and the write is handled: `n` tickets gone, the
beats before the last collected, the beat timer stopped, the port's last response forgotten. -/
def Sup.collected (s : Sup) (p : Port) (start : Nat) (beats : List Word) : Sup :=
  { s with ticket := s.ticket + beats.length }.setPort p
    { s.port p with
      collection := .collecting start beats.length beats.dropLast, timer := none, response := none }

theorem Sup.port_ports (s : Sup) (p : Port) : s.port p = s.ports.get p := rfl

/-- One beat that is not the last. -/
theorem Sup.beat_more {s : Sup} {p : Port} {start length : Nat} {bs : List Word}
    (h : (s.port p).collection = .collecting start length bs) (w : Word) (hl : (bs ++ [w]).length < length) :
    s.beat p w =
      s.useTicket.setPort p
        { s.port p with collection := .collecting start length (bs ++ [w]), timer := some (s.after s.beatPeriods) } := by
  unfold Sup.beat
  rw [h]
  dsimp only
  rw [if_pos hl]

/-- The last beat. -/
theorem Sup.beat_last {s : Sup} {p : Port} {start length : Nat} {bs : List Word}
    (h : (s.port p).collection = .collecting start length bs) (w : Word) (hl : ¬(bs ++ [w]).length < length) :
    s.beat p w =
      (s.setPort p { s.port p with timer := none }).passAdmission p
        ((s.setPort p { s.port p with timer := none }).takeWrite p start (bs ++ [w])) := by
  unfold Sup.beat
  rw [h]
  dsimp only
  rw [if_neg hl]

/-- The beats of a write from a collecting controller on: the state between is known up to its timer. -/
theorem Sup.beats_from (p : Port) (start : Nat) :
    ∀ (rest bs : List Word) (k : Nat) (s u : Sup) (e : Option Nat), rest ≠ [] →
      u = { s with ticket := k }.setPort p
        { s.port p with collection := .collecting start (bs ++ rest).length bs, timer := e, response := none } →
      rest.foldl (fun t w => t.beat p w) u =
        (({ s with ticket := k + (rest.length - 1) }.setPort p
            { s.port p with
              collection := .collecting start (bs ++ rest).length (bs ++ rest).dropLast, timer := none
              response := none }).passAdmission p
          (({ s with ticket := k + (rest.length - 1) }.setPort p
            { s.port p with
              collection := .collecting start (bs ++ rest).length (bs ++ rest).dropLast, timer := none
              response := none }).takeWrite p start (bs ++ rest)))
  | [], _, _, _, _, _, h, _ => absurd rfl h
  | [w], bs, k, s, u, e, _, hu => by
    have hc : (u.port p).collection = .collecting start (bs ++ [w]).length bs := by rw [hu, Sup.port_setPort]
    show u.beat p w = _
    rw [Sup.beat_last hc w (by omega)]
    have hs : u.setPort p { u.port p with timer := none } =
        { s with ticket := k + (([w] : List Word).length - 1) }.setPort p
          { s.port p with
            collection := .collecting start (bs ++ [w]).length (bs ++ [w]).dropLast, timer := none
            response := none } := by
      subst hu
      rw [Sup.port_setPort, List.dropLast_concat]
      unfold Sup.setPort
      dsimp only
      rw [PerPort.set_set]
      rfl
    rw [hs]
  | w :: w' :: rest, bs, k, s, u, e, _, hu => by
    have hc : (u.port p).collection = .collecting start (bs ++ w :: w' :: rest).length bs := by
      rw [hu, Sup.port_setPort]
    have hl : (bs ++ [w]).length < (bs ++ w :: w' :: rest).length := by
      simp only [List.length_append, List.length_cons, List.length_nil]; omega
    have happ : bs ++ w :: w' :: rest = (bs ++ [w]) ++ w' :: rest := by simp
    show (w' :: rest).foldl (fun t w => t.beat p w) (u.beat p w) = _
    rw [Sup.beat_more hc w hl]
    have := Sup.beats_from p start (w' :: rest) (bs ++ [w]) (k + 1) s
      (u.useTicket.setPort p
        { u.port p with
          collection := .collecting start (bs ++ w :: w' :: rest).length (bs ++ [w])
          timer := some (u.after u.beatPeriods) })
      (some (u.after u.beatPeriods)) (by simp)
      (by
        generalize some (u.after u.beatPeriods) = e'
        subst hu
        rw [Sup.port_setPort, happ]
        unfold Sup.setPort Sup.useTicket
        dsimp only
        rw [PerPort.set_set])
    rw [this, ← happ]
    have hk : k + 1 + ((w' :: rest).length - 1) = k + ((w :: w' :: rest).length - 1) := by
      simp only [List.length_cons]; omega
    rw [hk]

/-- A whole write at a listening port: admission, then classification, on what its beats left (R2, R6). -/
theorem Sup.sendWrite_listens {s : Sup} {p : Port} (h : s.listens p) (start : Nat) {beats : List Word}
    (hb : beats ≠ []) :
    s.sendWrite p start beats =
      (s.collected p start beats).passAdmission p ((s.collected p start beats).takeWrite p start beats) := by
  have hc : (s.port p).collection = .idle := h
  have ha : s.awaitsLast p start beats = false := by
    unfold Sup.awaitsLast
    rw [hc]
  unfold Sup.sendWrite
  rw [ha]
  have hw : s.writeHeader p start beats.length =
      { s with ticket := s.ticket + 1 }.setPort p
        { s.port p with
          collection := .collecting start ([] ++ beats).length [], timer := some (s.after s.beatPeriods)
          response := none } := by
    unfold Sup.writeHeader
    rw [hc]
    rfl
  have := Sup.beats_from p start beats [] (s.ticket + 1) s _ _ hb hw
  have hk : s.ticket + 1 + (beats.length - 1) = s.ticket + beats.length := by
    have := List.length_pos_iff.2 hb
    omega
  rw [hk] at this
  exact this

/-- What is left of the collection is all but the port, and the tickets. -/
theorem Sup.collected_traffic (s : Sup) (p : Port) (start : Nat) (beats : List Word) :
    (s.collected p start beats).beyondTraffic = s.beyondTraffic := rfl

theorem Sup.collected_port (s : Sup) (p : Port) (start : Nat) (beats : List Word) :
    (s.collected p start beats).port p =
      { s.port p with
        collection := .collecting start beats.length beats.dropLast, timer := none, response := none } :=
  Sup.port_setPort _ _ _

theorem Sup.collected_other (s : Sup) {p q : Port} (start : Nat) (beats : List Word) (h : q ≠ p) :
    (s.collected p start beats).port q = s.port q := Sup.port_setPort_other _ _ h

/-- A request of an admitted port is classified. -/
theorem Sup.passAdmission_admits {s : Sup} {p : Port} (h : s.admits p) (c : Sup) : s.passAdmission p c = c := by
  unfold Sup.passAdmission
  rw [h.1]
  dsimp only
  rw [h.2]
  rfl

theorem Sup.passAdmission_stalled {s : Sup} (h : s.admission = .stalled) (p : Port) (c : Sup) : s.passAdmission p c = s.respond p .wait := by
  unfold Sup.passAdmission
  rw [h]

theorem Sup.passAdmission_quarantined {s : Sup} {p : Port} (h : s.admission = .admitting) (hq : (s.port p).quarantined = true)
    (c : Sup) : s.passAdmission p c = s.respond p (.denied .quarantined) := by
  unfold Sup.passAdmission
  rw [h]
  dsimp only
  rw [hq]
  rfl

theorem Sup.collected_admits {s : Sup} {p : Port} (h : s.admits p) (start : Nat) (beats : List Word) :
    (s.collected p start beats).admits p := by
  refine ⟨h.1, ?_⟩
  rw [Sup.collected_port]
  exact h.2

/-- A classification reads neither the port controllers nor the tickets. -/
theorem Sup.collected_classify (s : Sup) (p : Port) (start : Nat) (beats : List Word) (q : Port) (a : Nat)
    (bs : List Word) : (s.collected p start beats).classify q a bs = s.classify q a bs := rfl

/-- A whole write that is applied: what step 8 makes of it. -/
theorem Sup.sendWrite_applies {s : Sup} {p : Port} {start : Nat} {beats : List Word} {c : Course}
    (h : s.applies p start beats c) (hb : beats ≠ []) :
    s.sendWrite p start beats = (s.collected p start beats).applyWrite p start beats c := by
  rw [Sup.sendWrite_listens h.1 start hb, Sup.passAdmission_admits (Sup.collected_admits h.2.1 start beats)]
  unfold Sup.takeWrite
  rw [Sup.collected_classify, h.2.2]

/-- The supervisor when an absorbed or merged write has been answered DONE and its block has not yet taken it. -/
def Sup.doneWith (s : Sup) (p : Port) (start : Nat) (beats : List Word) : Sup :=
  ((s.collected p start beats).supersede p start).respond p (.done [])

theorem Sup.traffic_of_told {s t : Sup} (h : s.beyondTold = t.beyondTold) : s.beyondTraffic = t.beyondTraffic :=
  congrArg (fun u : Sup => { u with ports := blankSup.ports }) (Sup.hold_of_told h)

theorem Sup.traffic_of_hold {s t : Sup} (h : s.beyondHold = t.beyondHold) : s.beyondTraffic = t.beyondTraffic :=
  congrArg (fun u : Sup => { u with ports := blankSup.ports }) h

theorem Sup.traffic_of_ports {s t : Sup} (h : s.beyondPorts = t.beyondPorts) : s.beyondTraffic = t.beyondTraffic :=
  congrArg
    (fun u : Sup =>
      { u with hold := blankSup.hold, mp := { u.mp with control := [], reports := [], releases := [] } })
    h

/-- Answering a write changes the port, the hold table and what is told. -/
theorem Sup.doneWith_traffic (s : Sup) (p : Port) (start : Nat) (beats : List Word) :
    (s.doneWith p start beats).beyondTraffic = s.beyondTraffic :=
  (Sup.traffic_of_ports (Sup.respond_ports _ _ _)).trans
    ((Sup.traffic_of_hold (Sup.supersede_hold (s.collected p start beats) p start)).trans
      (Sup.collected_traffic s p start beats))

theorem noteHold_port (s t : Sup) (p : Port) : (Sup.noteHold s t).port p = t.port p :=
  (congrArg (fun u : Sup => u.port p) (noteHold_told s t) :)

theorem noteHold_hold_field (s t : Sup) : (Sup.noteHold s t).hold = t.hold :=
  (congrArg Sup.hold (noteHold_told s t) :)

/-- The port after its answer. -/
theorem Sup.doneWith_port (s : Sup) (p : Port) (start : Nat) (beats : List Word) :
    (s.doneWith p start beats).port p =
      { s.port p with collection := .idle, timer := none, response := some (.done []), waits := 0, faults := 0 } := by
  unfold Sup.doneWith
  rw [Sup.respond_done]
  have : ((s.collected p start beats).supersede p start).port p = (s.collected p start beats).port p :=
    noteHold_port _ _ _
  rw [this, Sup.collected_port]

theorem Sup.doneWith_other (s : Sup) {p q : Port} (start : Nat) (beats : List Word) (h : q ≠ p) :
    (s.doneWith p start beats).port q = s.port q := by
  unfold Sup.doneWith
  rw [Sup.respond_other _ _ h]
  have : ((s.collected p start beats).supersede p start).port q = (s.collected p start beats).port q :=
    noteHold_port _ _ _
  rw [this, Sup.collected_other _ _ _ h]

/-- The hold table after the answer: the port's own entry of that start address is gone (R61). -/
theorem Sup.doneWith_hold (s : Sup) (p : Port) (start : Nat) (beats : List Word) :
    (s.doneWith p start beats).hold =
      { s.hold with entries := s.hold.entries.filter fun e => !e.isOf p start } := by
  unfold Sup.doneWith
  have h1 : ∀ (u : Sup) (r : Response), (u.respond p r).hold = u.hold := fun u r =>
    (congrArg Sup.hold (Sup.respond_ports u p r) :)
  rw [h1]
  exact (noteHold_hold_field _ _).trans rfl

/-- An absorbed whole write: the record is taken once the port has been answered. -/
theorem Sup.sendWrite_absorbs {s : Sup} {p : Port} {start : Nat} {beats : List Word} {a : RecordAct}
    (h : s.applies p start beats (.absorb a)) (hb : beats ≠ []) :
    s.sendWrite p start beats = (s.doneWith p start beats).takeRecord Sup.levelRelease p a :=
  Sup.sendWrite_applies h hb

/-- A merged whole write. -/
theorem Sup.sendWrite_merges {s : Sup} {p : Port} {start : Nat} {beats : List Word}
    (h : s.applies p start beats .merge) (hb : beats ≠ []) :
    s.sendWrite p start beats = (s.doneWith p start beats).mergeWrite start beats :=
  Sup.sendWrite_applies h hb

end Sys2Proof.Machine
end

