-- ==== Sys2Proof/Tests/Slice0.lean ====
section
/-! SUPPORT. Tests of the model on small states: what WellFormed refuses, one step of each family, and for each statement's
hypotheses a state and operands that meet them. -/

namespace Sys2Proof.Tests

open Sys2Proof.Machine

/-! ### Small states -/

/-- The 7A under the fallback charter once start-up is over, with no internal read waiting. -/
def running : Sup :=
  { State.reset.sup with
    charter := some fallbackCharter, isFallback := true, admission := .admitting
    startUp := { step := .running, cause := .power }
    mp := { State.reset.sup.mp with reads := [] } }

/-- A state whose 7A is the running one but for a change. -/
def at' (f : Sup → Sup) : State := { State.reset with sup := f running }

/-- A state at a step of start-up under the fallback charter, with one read of some words complete for a reader. -/
def starting (step : StartStep) (cause : ResetCause) (r : Reader) (words : List ReadWord) : State :=
  at' fun u =>
    { u with
      admission := .stalled
      startUp := { step := step, cause := cause }
      mp := { u.mp with reads := [{ number := 0, reader := r, start := 0x3F000, length := words.length, words := words }] } }

def good (ws : List Word) : List ReadWord := ws.map fun w => { value := w, bad := false }

/-- A supervisor with one lamp's cell changed. -/
def withLamp (l : Lamp) (f : LampCell → LampCell) (u : Sup) : Sup := u.setCell l (f (u.lamp.lamps.get l))

/-- A supervisor one of whose ports has changed. -/
def withPort (p : Port) (f : PortCtl → PortCtl) (u : Sup) : Sup := u.setPort p (f (u.port p))

/-- The running 7A under a charter that is the fallback charter but for its windows. -/
def withWindows (ws : List Window) (u : Sup) : Sup := { u with charter := some { fallbackCharter with windows := ws } }

/-- Window 7 gated, with lock action HOLD, and window 8 lit-only, beside the fallback windows. -/
def holdWindows (wait : Bool) : List Window :=
  (fallbackCharter.windows.take 7) ++
    [{ cls := .plain, base := 0x1000, size := 16, gated := true, lockHold := true, bursts := true, litOnly := false, exhaustWait := wait },
      { cls := .plain, base := 0x2000, size := 16, gated := false, lockHold := false, bursts := true, litOnly := true, exhaustWait := wait }] ++
    List.replicate 7 unusedWindow

/-- The level EXAM in force by the schedule. -/
def exam (u : Sup) : Sup := { u with lock := { u.lock with schedule := .exam, level := .exam } }

def held (q : Word) : HoldEntry :=
  { port := .panel, start := 0x1000, data := [5], window := 7, condition := .lit, time := 0, sequence := q, serial := q.toNat }

/-- Next state, or none. -/
def after (c : Instr) (s : State) : Option State :=
  match exec c s with
  | .next t => some t
  | _ => none

/-- What the next state answers to a question, and false where there is none. -/
def asks (c : Instr) (s : State) (f : Sup → Bool) : Bool := ((after c s).map fun t => f t.sup) == some true

/-- The error of a judgement, if it is one. -/
def failed {ε α : Type} : Except ε α → Option ε
  | .error e => some e
  | .ok _ => none

/-- A charter block: the fallback charter with version 1 and its checksum. -/
def block : List Word :=
  [31324, 1, 23531] ++ List.replicate 13 0 ++ [7, 0, 0, 5, 0, 0, 0, 0, 2, 32, 0, 0, 0, 0, 0, 0] ++
    [4, 33, 0, 0, 0, 0, 0, 0, 6, 34, 0, 1, 0, 0, 0, 0] ++ [3, 40, 0, 3, 0, 0, 0, 0, 5, 48, 0, 3, 0, 0, 0, 0] ++
    [8, 56, 0, 3] ++ List.replicate 76 0 ++ [20, 4, 1, 0, 0, 0, 0, 0, 15, 10, 10, 8, 60, 0, 0, 0] ++
    [1, 20, 60, 120, 3, 3000, 4000] ++ List.replicate 9 0 ++ [4096, 4098, 4354, 4100, 4356, 6, 262, 7] ++ List.replicate 8 0 ++
    [33024, 33025, 33026, 33027, 33028, 33029, 33030, 33031, 32776, 32777, 9, 9, 9, 9, 9, 9] ++ [4, 12] ++
    List.replicate 14 0 ++ [3093, 0, 4118, 10, 4119, 0, 2584, 30, 3097, 120, 4122, 0, 3099, 0] ++ List.replicate 18 0 ++
    [0, 0, 1919, 0, 0, 1199, 1919, 1199] ++ [0, 0, 1408, 0, 0, 880, 1408, 880] ++
    [511, 319, 1919, 319, 511, 1199, 1919, 1199] ++ [960, 600, 8] ++ List.replicate 37 0 ++ [15] ++ List.replicate 7 0 ++
    [256, 0, 64, 16, 10, 0, 0, 0] ++ [120] ++ List.replicate 687 0

/-! ### WellFormed -/

theorem test_wellFormed_read : (Instr.portRead .panel 0 0).wellFormed = false ∧ (Instr.portRead .panel 0 8).wellFormed = true := by
  decide

theorem test_wellFormed_forwarded : (Instr.forwardedWrite .panel 0 []).wellFormed = false := by decide

theorem test_wellFormed_merged : (Instr.mergedWrite .panel 0 (List.replicate 9 0)).wellFormed = false := by decide

theorem test_wellFormed_trim : (Instr.trimWrite .panel 0 []).wellFormed = false := by decide

theorem test_wellFormed_header : (Instr.writeHeader .panel 0 9).wellFormed = false := by decide

theorem test_refuses_ill_formed : exec (.portRead .panel 0 9) State.reset = .refused .inexpressible := rfl

/-! ### One step of each family -/

theorem test_reset_charter_read_asked : (State.reset.sup.mp.reads.map fun r => (r.start, r.length)) = [(0x3F000, 1024)] := by decide

theorem test_stalled_read_waits : asks (.portRead .panel 0 1) State.reset (fun u => u.ports.panel.response == some .wait) = true := by
  decide

theorem test_light_on_strikes : asks (.lightWrite .service 2) (at' id) (fun u => u.lamp.lamps.a.state == .striking) = true := by decide

theorem test_light_on_alternates : asks (.lightWrite .service 2) (at' id) (fun u => u.lamp.lamps.b.state == .dark) = true := by decide

theorem test_light_reserved_bit : asks (.lightWrite .service 4) (at' id) (fun u => u.ports.service.response == some (.denied .record)) =
    true := by decide

theorem test_claim_foreign : asks (.claimWrite .panel 1 8) (at' id) (fun u => u.ports.panel.response == some (.denied .foreign)) = true := by
  decide

theorem test_claim_mutes : asks (.claimWrite .panel 0 0x0108) (at' id) (fun u => u.seq.state == .muting && u.seq.liveMute == .muted) =
    true := by decide

theorem test_exam_holds : asks (.forwardedWrite .panel 0x1000 [1, 2]) (at' fun u => exam (withWindows (holdWindows true) u))
    (fun u => u.ports.panel.response == some .held && u.hold.entries.length == 1) = true := by decide

theorem test_span_refused : asks (.forwardedWrite .panel 0x3FFFF [1, 2]) (at' id) (fun u => u.ports.panel.response == some (.denied .span)) =
    true := by decide

theorem test_charter_foreign : asks (.forwardedWrite .panel 0x3F000 [1]) (at' id)
    (fun u => u.ports.panel.response == some (.denied .foreign)) = true := by decide

theorem test_clock_range : timeOfClockWords? 0x1706 0x3B3B = some 604799 ∧ timeOfClockWords? 0x1707 0 = none := by decide

theorem test_trim_clamped : targetOf fallbackCharter.geometry (.all (-512)) = ⟨0, 0, 1408, 0, 0, 880, 1408, 880⟩ := by decide

theorem test_key_interval : asks (.keyEdge true) (at' id) (fun u => u.lock.keyInterval == some 1639) = true := by decide

theorem test_second_tick : asks .secondTick (at' id) (fun u => u.room.uptime == 1 && u.time.nextSecond == 65536) = true := by decide

theorem test_takeover_level : asks (.takeoverStart .service) (at' id) (fun u => u.lock.level == .service && u.notice.stack.length == 1) =
    true := by decide

theorem test_overlay_of_takeover : asks (.takeoverStart .service) (at' id) (fun u => u.notice.overlay == 0x1017) = true := by decide

theorem test_step_front : step { at' id with pending := [.secondTick] } = exec .secondTick (at' id) := rfl

theorem test_idle_period : asks .secondTick (at' id) (fun u => u.time.crystal == 32768) = true := by decide

/-- The start-up of an empty memory: the charter fails its signature and the fallback charter is in force. -/
theorem test_empty_memory_falls_back :
    failed (judgeCharter (List.replicate 1024 { value := 0, bad := false })) = some .signature := by decide +kernel

theorem test_block_is_a_charter : ((judgeCharter (good block)).toOption.map (·.version)) = some 1 := by decide +kernel


/-! ### The hypotheses of the statements are met -/

/-- The reads of a reader, complete. -/
def readOf (s : State) (r : Reader) : List ReadWord := (s.sup.readsOf r).flatMap fun q => q.finish s.mem

theorem witness_resets : (after .powerOnReset (at' id)).isSome = true ∧ (after .lineReset (at' id)).isSome = true := by decide

theorem witness_charterLoad :
    State.reset.sup.startUp.step = .charterLoad ∧
      (judgeCharter (readOf (starting .charterLoad .power .charterStart (good block)) .charterStart)).toOption.isSome = true ∧
      failed (judgeCharter (readOf (starting .charterLoad .power .charterStart []) .charterStart)) = some .signature ∧
      failed (judgeCharter (readOf (starting .charterLoad .power .charterStart [⟨0, true⟩]) .charterStart)) = some .parity := by
  decide +kernel

/-- Retained records as a power-on finds them: lamp A's valid, lamp B's not, the shutdown record with lamp B hot. -/
def records : List ReadWord :=
  good (lampRecordWords .a WearCell.reset ++ List.replicate 8 0 ++ [shutdownMark, 2, 0, 0, 0, 0])

theorem witness_adoption :
    (starting .records .power .records records).sup.startUp.step = .records ∧
      (starting .records .power .records records).sup.lamp.demand.level = .off ∧
      (judgeLampRecord .a (records.take 8)).toOption.isSome = true ∧
      failed (judgeLampRecord .b ((records.drop 8).take 8)) = some 2 ∧ shownHot ((records.drop 16).take 4) .b = true := by decide

theorem witness_rebuild :
    (starting .rebuild .power .rebuild []).sup.startUp = { step := .rebuild, cause := .power } ∧
      (starting .rebuild .line .rebuild []).sup.startUp = { step := .rebuild, cause := .line } ∧
      (mirrorsOf (readOf (starting .rebuild .line .rebuild []) .rebuild)).liveMute.bad = true := by decide

theorem witness_headerRead :
    (starting .header .power .header []).sup.startUp.step = .header ∧
      (starting .header .power .header []).sup.hold.entries = [] ∧ headerOfWord? 49 = none ∧
      headerOfWord? 48 = some (48, false) ∧ headerOfWord? 0x4000 = some (0, true) ∧
      headerOfWord? 0x4001 = some (0 + 1, true) := by decide

/-- A load of one entry, with the words read. -/
def loading (step : StartStep) (words : List ReadWord) : State :=
  at' fun u =>
    { u with
      startUp := { step := step, cause := .power }
      sched := { u.sched with state := .loading, count := 1, enable := true, load := some 0 }
      mp := { u.mp with reads := [{ number := 0, reader := .entries, start := 0x3E010, length := 8, words := words }] } }

def entryWords : List ReadWord := good [0, 10080, 2, 31, 0, 0, 0, 0]

theorem witness_loadDone :
    (loading .running entryWords).sup.noneWaits .lock ∧ (loading .running entryWords).sup.sched.load = some 0 ∧
      ((loading .running entryWords).sup.readsOf .entries).length = 1 ∧
      (judgeEntries fallbackCharter 1 0 none entryWords).toOption.isSome = true ∧
      (failed (judgeEntries fallbackCharter 1 0 none [⟨0, true⟩])).isSome = true ∧
      (loading .entries entryWords).sup.startUp.step = .entries ∧ (some 1 : Option Nat) ≠ some 0 := by
  refine ⟨(fun _ he => absurd he List.not_mem_nil), ?_⟩
  decide

/-- A port that collects a write of two words at an address, with one word taken, and one that awaits its response. -/
def collecting (p : Port) (u : Sup) : Sup :=
  withPort p (fun c => { c with collection := .collecting 0x1000 2 [7], timer := some 5 }) u

def awaiting (p : Port) (u : Sup) : Sup := withPort p (fun c => { c with collection := .awaiting (.read 0 1 none) }) u

theorem witness_stalled :
    State.reset.sup.listens .panel ∧ State.reset.sup.admission = .stalled ∧ (at' id).sup.admission = .admitting ∧
      ((at' (withPort .panel fun c => { c with quarantined := true })).sup.port .panel).quarantined = true ∧
      (at' (collecting .panel)).sup.port .panel = { PortCtl.reset with collection := .collecting 0x1000 2 [7], timer := some 5 } ∧
      (2 : Nat) ≤ [(7 : Word)].length + 1 := by
  refine ⟨rfl, ?_⟩
  decide

theorem witness_unready :
    ((at' (awaiting .panel)).sup.port .panel).collection = .awaiting (.read 0 1 none) ∧
      ((at' (collecting .panel)).sup.port .panel).collection = .collecting 0x1000 2 [7] ∧ (at' id).sup.listens .panel := by
  refine ⟨by decide, by decide, rfl⟩

theorem witness_collect :
    lengthExpressible 1 = true ∧ lengthExpressible 8 = true ∧ (at' id).sup.listens .campus ∧
      (at' id).sup.charter = some fallbackCharter ∧ State.reset.sup.charter = none ∧ [(7 : Word)].length + 1 < 3 ∧
      [(7 : Word)].length + 1 = 2 := by
  refine ⟨by decide, by decide, rfl, rfl, rfl, by decide, by decide⟩

theorem witness_beatTimeout :
    ((at' (collecting .panel)).sup.port .panel).timer = some 5 ∧
      fallbackCharter.port.faultLimit ≤ min (3 + 1) 15 ∧ ¬fallbackCharter.port.faultLimit ≤ min (2 + 1) 15 := by decide

theorem witness_reads :
    (at' id).sup.listens .panel ∧ (at' id).sup.admits .panel ∧ Config.memoryWords < 0x3FFFF + 2 ∧
      readLengthOk (holdWindows true ++ [fallbackWindow .plain 0x3000 16]) (.configured 16) 2 = false ∧
      readLengthOk fallbackCharter.windows (windowAt fallbackCharter.windows 0) 8 = true ∧ (at' id).sup.place .status 14 = 14 := by
  refine ⟨rfl, ⟨rfl, rfl⟩, ?_⟩
  decide

theorem witness_denied :
    (at' id).sup.meets .panel ((at' id).sup.place .light 0) [4] (.denied .record) ∧
      (at' id).sup.classify .panel 0x22 [1] = .denied .burst ∧ (at' id).sup.classify .panel 0x3FFFF [1, 1] = .denied .span ∧
      (at' fun u => exam (withWindows (holdWindows true) u)).sup.classify .panel 0x1000 [1] = .offered .lock 7 ∧
      (at' fun u => exam u).sup.classify .panel 0x3E000 [0] = .denied .locked := by
  refine ⟨⟨rfl, ⟨rfl, rfl⟩, by decide⟩, ?_⟩
  decide

/-- A lit-only window met with no lamp lit, under either exhaustion policy. -/
def dark (wait : Bool) (limit : Nat) (entries : List HoldEntry) : State :=
  at' fun u =>
    { u with
      charter := some { fallbackCharter with windows := holdWindows wait, port := { fallbackCharter.port with retryLimit := limit } }
      hold := { u.hold with entries := entries } }

/-- 24 entries. -/
def fullTable : List HoldEntry := (List.range 24).map fun n => { held (BitVec.ofNat 16 n) with start := 0x1000 + n }

theorem witness_offered :
    (dark true 0 []).sup.meets .panel 0x2000 [1] (.offered .lit 8) ∧ (dark true 0 []).sup.hasRoom .panel 0x2000 1 = true ∧
      (dark true 0 fullTable).sup.hasRoom .panel 0x2000 1 = false ∧
      (dark true 1 fullTable).sup.classify .panel 0x2000 [1] = .offered .lit 8 ∧
      (dark false 0 fullTable).sup.classify .panel 0x2000 [1] = .offered .lit 8 ∧
      (windowRecord (holdWindows true) 8).exhaustWait = true ∧ (windowRecord (holdWindows false) 8).exhaustWait = false := by
  refine ⟨⟨rfl, ⟨rfl, rfl⟩, by decide⟩, ?_⟩
  decide

theorem witness_forward : (at' id).sup.applies .panel 0x3BFFF [1] .forward := ⟨rfl, ⟨rfl, rfl⟩, by decide⟩

theorem witness_merge :
    (at' id).sup.applies .panel ((at' id).sup.place .status 31) [1] .merge ∧
      (at' id).sup.applies .service 0x3FF00 [1, 2] .merge ∧ (at' id).sup.retainedWord? 0x3FF00 = some 0 ∧
      ((at' (withLamp .a fun c => { c with recordValid := false })).sup.retainedWord? 0x3FF07) = none := by
  refine ⟨⟨rfl, ⟨rfl, rfl⟩, by decide⟩, ⟨rfl, ⟨rfl, rfl⟩, by decide⟩, ?_⟩
  decide

/-- The running 7A with an access in progress. -/
def during (a : Access) : State := at' fun u => { u with mp := { u.mp with access := some a } }

theorem witness_access :
    (during (.control 0x3FFFF 1)).memoryLaw ∧ (during (.control 0x3FFFF 1)).sup.mp.access = some (.control 0x3FFFF 1) ∧
      (Access.port .panel (.read 14 1 (some 0))).writes = none ∧
      (Access.port .panel (.write 14 [1])).writes = some (14, [1]) ∧
      (during (.record 0x100 ⟨.lit, 0, 5, 0⟩)).sup.charter.isSome = true := by
  refine ⟨rfl, rfl, rfl, rfl, rfl⟩

theorem witness_readDone :
    asks (.memoryAccessDone []) (during (.port .panel (.read 14 1 (some 0)))) (fun u => u.ports.panel.response == some (.done [0])) =
        true ∧
      asks (.memoryAccessDone [14]) (during (.port .panel (.read 14 1 (some 0)))) (fun u => u.ports.panel.response == some .fault) =
        true := by decide

theorem witness_ringTail :
    (at' id).sup.applies .panel ((at' id).sup.place .status 16) [0] .merge ∧
      (at' id).sup.place .status 16 < Config.retainedBase := by
  refine ⟨⟨rfl, ⟨rfl, rfl⟩, by decide⟩, by decide⟩

/-- The demand at a level. -/
def demand (v : LightLevel) (u : Sup) : Sup := { u with lamp := { u.lamp with demand := { level := v, setTime := 0 } } }

theorem witness_light :
    (at' id).sup.applies .panel ((at' id).sup.place .light 0) [0] (.absorb (.light .off)) ∧
      (at' id).sup.applies .panel ((at' id).sup.place .light 0) [3] (.absorb (.light .boost)) ∧
      (at' (demand .eco)).sup.applies .panel ((at' id).sup.place .light 0) [0] (.absorb (.light .off)) ∧
      (at' (demand .eco)).sup.applies .panel ((at' id).sup.place .light 0) [3] (.absorb (.light .boost)) ∧
      (at' id).sup.strikeable .a = true ∧
      (at' fun u => { u with charter := some { fallbackCharter with lamp := { fallbackCharter.lamp with dual := true } } }).sup.chart.lamp.dual =
        true := by
  refine ⟨⟨rfl, ⟨rfl, rfl⟩, by decide⟩, ⟨rfl, ⟨rfl, rfl⟩, by decide⟩, ⟨rfl, ⟨rfl, rfl⟩, by decide⟩, ⟨rfl, ⟨rfl, rfl⟩, by decide⟩, ?_⟩
  decide

theorem witness_claim :
    (at' id).sup.applies .service ((at' id).sup.place .claim (3 : Fin 8).val) [31]
      (.absorb (.claim .service { source := none, cls := 0, urgent := false })) := ⟨rfl, ⟨rfl, rfl⟩, by decide⟩

theorem witness_mute :
    (at' id).sup.applies .campus ((at' id).sup.place .mute 0) [1] (.absorb (.mute .muted)) ∧
      (at' id).sup.apart ((at' id).sup.place .mute 0) := by
  refine ⟨⟨rfl, ⟨rfl, rfl⟩, by decide⟩, by decide, ?_⟩
  intro o ho
  have : (at' id).sup.place .status o = 0 + o := rfl
  have h33 : (at' id).sup.place .mute 0 = 33 := rfl
  rw [this, h33]
  omega

theorem witness_trim :
    (at' id).sup.applies .panel ((at' id).sup.place .geometry (7 : Fin 8).val) [0xFE00]
      (.absorb (.trim ⟨0, 0, 0, 0, 0, 0, 0, -512⟩)) := ⟨rfl, ⟨rfl, rfl⟩, by decide⟩

theorem witness_clock :
    (at' id).sup.applies .panel ((at' id).sup.place .clock 0) [0x1706, 0x3B3B] (.absorb (.clock 604799)) ∧
      (at' id).sup.sched.state ≠ .enabled ∧ (at' id).sup.noneWaits .lock ∧
      (at' fun u => { u with sched := { u.sched with state := .enabled } }).sup.applies .panel ((at' id).sup.place .clock 0) [0, 0]
        (.absorb (.clock 0)) := by
  refine ⟨⟨rfl, ⟨rfl, rfl⟩, by decide⟩, by decide, (fun _ he => absurd he List.not_mem_nil), ⟨rfl, ⟨rfl, rfl⟩, by decide⟩⟩

/-- The schedule ENABLED with a count. -/
def enabled (n : Nat) : State := at' fun u => { u with sched := { u.sched with state := .enabled, count := n, enable := true } }

theorem witness_header :
    (at' id).sup.applies .panel scheduleBase [0x4030] (.absorb (.header 48 true)) ∧
      (at' id).sup.applies .panel scheduleBase [0x4000] (.absorb (.header 0 true)) ∧
      (enabled 3).sup.applies .panel scheduleBase [0x4003] (.absorb (.header 3 true)) ∧
      (at' id).sup.applies .panel scheduleBase [5] (.absorb (.header 5 false)) ∧
      (enabled 3).sup.applies .panel scheduleBase [3] (.absorb (.header 3 false)) ∧ (at' id).sup.noneWaits .lock := by
  refine ⟨⟨rfl, ⟨rfl, rfl⟩, by decide⟩, ⟨rfl, ⟨rfl, rfl⟩, by decide⟩, ⟨rfl, ⟨rfl, rfl⟩, by decide⟩, ⟨rfl, ⟨rfl, rfl⟩, by decide⟩,
    ⟨rfl, ⟨rfl, rfl⟩, by decide⟩, (fun _ he => absurd he List.not_mem_nil)⟩

theorem witness_portRelease :
    (at' id).sup.applies .service ((at' id).sup.place .service 0) [3] (.absorb (.portRelease .service)) ∧
      (at' (withPort .panel fun c => { c with quarantined := true })).sup.applies .service ((at' id).sup.place .service 0) [0]
        (.absorb (.portRelease .panel)) := by
  refine ⟨⟨rfl, ⟨rfl, rfl⟩, by decide⟩, ⟨rfl, ⟨rfl, rfl⟩, by decide⟩⟩

/-- A service takeover active. -/
def taken : State := at' fun u => { u with lock := { u.lock with takeover := some 9, level := .service } }

theorem witness_takeover :
    (at' id).sup.applies .service ((at' id).sup.place .service 1) [1] (.absorb .takeoverStart) ∧
      taken.sup.applies .service ((at' id).sup.place .service 1) [1] (.absorb .takeoverStart) ∧
      (at' id).sup.applies .service ((at' id).sup.place .service 1) [2] (.absorb .takeoverEnd) ∧
      taken.sup.applies .service ((at' id).sup.place .service 1) [2] (.absorb .takeoverEnd) ∧ taken.sup.lock.takeover = some 9 ∧
      taken.sup.noneWaits .lock := by
  refine ⟨⟨rfl, ⟨rfl, rfl⟩, by decide⟩, ⟨rfl, ⟨rfl, rfl⟩, by decide⟩, ⟨rfl, ⟨rfl, rfl⟩, by decide⟩, ⟨rfl, ⟨rfl, rfl⟩, by decide⟩, rfl,
    (fun _ he => absurd he List.not_mem_nil)⟩

theorem witness_mend :
    (at' (withLamp .b fun c => { c with state := .failed })).sup.applies .service ((at' id).sup.place .service 4) [1]
        (.absorb (.lampClear .b)) ∧
      (at' (withLamp .b fun c => { c with state := .cooling, marked := true })).sup.applies .service
        ((at' id).sup.place .service 4) [1] (.absorb (.lampClear .b)) ∧
      (at' id).sup.applies .service ((at' id).sup.place .service 2) [0, 77] (.absorb (.lampReplace .a 77)) := by
  refine ⟨⟨rfl, ⟨rfl, rfl⟩, by decide⟩, ⟨rfl, ⟨rfl, rfl⟩, by decide⟩, ⟨rfl, ⟨rfl, rfl⟩, by decide⟩⟩

theorem witness_reload :
    (at' id).sup.applies .service ((at' id).sup.place .service 5) [9] (.absorb .charterReload) ∧
      (at' fun u => { u with reloading := true }).sup.reloading = true ∧
      (judgeCharter (readOf (starting .running .power .charterReload (good block)) .charterReload)).toOption.isSome = true := by
  refine ⟨⟨rfl, ⟨rfl, rfl⟩, by decide⟩, rfl, by decide +kernel⟩

theorem witness_keyDebounce :
    (at' fun u => { u with lock := { u.lock with keyInterval := some 9 } }).sup.lock.keyInterval = some 9 := rfl

theorem witness_holdExpiry :
    (dark true 0 [held 4]).sup.entryOf 4 = some (held 4) ∧ (dark true 0 [held 4]).sup.isAged (held 4) = false ∧
      (at' fun u => { u with hold := { u.hold with entries := [held 4] }, room := { u.room with uptime := 7200 } }).sup.isAged (held 4) =
        true ∧
      (at' fun u => { u with hold := { u.hold with entries := [held 4] }, room := { u.room with uptime := 7199 } }).sup.isAged (held 4) =
        false := by decide

/-- A lamp in a state with a running timer. -/
def lampIn (st : LampState) (marked : Bool) : State :=
  at' (withLamp .a fun c => { c with state := st, timer := some 3, marked := marked })

theorem witness_lampTimers :
    ((lampIn .striking false).sup.lamp.lamps.get .a).state = .striking ∧
      ((lampIn .striking false).sup.lamp.lamps.get .a).timer = some 3 ∧
      ((lampIn .warming false).sup.lamp.lamps.get .a).state = .warming ∧ (lampIn .warming false).sup.noneWaits .lit ∧
      ((lampIn .cooling true).sup.lamp.lamps.get .a).marked = true ∧
      ((lampIn .cooling false).sup.lamp.lamps.get .a).marked = false := by
  refine ⟨rfl, rfl, rfl, (fun _ he => absurd he List.not_mem_nil), rfl, rfl⟩

theorem witness_powerFail :
    (at' id).sup.lines.pwrfail = false ∧ (at' id).sup.startUp.step.adopted = true ∧
      State.reset.sup.startUp.step.adopted = false ∧
      (at' fun u => { u with lines := { u.lines with pwrfail := true } }).sup.lines.pwrfail = true := by decide

/-- A state whose clock is SET to a time of week. -/
def clockAt (t : Nat) (f : Sup → Sup) : State := at' fun u => f { u with room := { u.room with timeOfWeek := t, isSet := true } }

/-- A timetable of one entry from minute 1 to minute 3, current or not. -/
def timetable (current : Option Nat) (u : Sup) : Sup :=
  { u with
    sched :=
      { u.sched with
        state := .enabled, count := 1, enable := true, current := current
        loaded :=
          [{ startMinute := 1, endMinute := 3, level := .exam, claim := .withdraw, light := none, lead := 0, grace := true, preset := 0, warning := 0 }] } }

theorem witness_secondTick :
    ((clockAt 604799 id).sup.room.timeOfWeek + 1) % 604800 % 60 = 0 ∧ ((clockAt 58 id).sup.room.timeOfWeek + 1) % 604800 % 60 ≠ 0 ∧
      (stageOf fallbackCharter.lamp (min (0 + (LampCell.reset.use).1) wearMax)).code ≤ LifeStage.fresh.code := by decide

theorem witness_minuteBoundary :
    asks .secondTick (clockAt 59 (timetable none)) (fun u => u.sched.current == some 0 && u.lock.level == .exam) = true ∧
      asks .secondTick (clockAt 179 (timetable (some 0))) (fun u => u.sched.current == none && u.sched.grace.isSome) = true ∧
      asks .secondTick (clockAt 119 (timetable (some 0))) (fun u => u.sched.current == some 0) = true := by decide

/-- A running grace from uptime 0 to uptime 60, at an uptime. -/
def graceAt (now : Uptime) : State :=
  at' fun u => { u with sched := { u.sched with grace := some { endUptime := 60, slotEnd := 0 } }, room := { u.room with uptime := now } }

theorem witness_grace :
    (graceAt 60).sup.graceOver { endUptime := 60, slotEnd := 0 } = true ∧
      (graceAt 59).sup.graceOver { endUptime := 60, slotEnd := 0 } = false ∧ (graceAt 60).sup.lamp.demand.setTime.toNat ≤ (0 : Uptime).toNat := by
  decide

theorem witness_signal :
    (at' id).inputLaw ∧ (at' id).sup.signal 7 = { line := false, present := false, interval := none } ∧
      ((at' fun u => u.setSignal 7 { line := true, present := false, interval := some 4 }).sup.signal 7).interval = some 4 := by
  refine ⟨rfl, by decide, by decide⟩

/-- The sequencer in a state. -/
def sequencing (st : SeqState) (counter : Nat) : State := at' fun u => { u with seq := { u.seq with state := st, counter := counter } }

theorem witness_ticks :
    (sequencing .revealing 0).sup.startUp.step.takesTicks = true ∧ State.reset.sup.startUp.step.takesTicks = false ∧
      asks .frameEdge (sequencing .settling 1) (fun u => u.seq.state == .revealing) = true ∧
      asks .substituteTick (sequencing .revealing 0) (fun u => u.seq.state == .idle) = true ∧
      asks .frameEdge (at' fun u => { u with geo := { u.geo with target := .all 9, slewing := true } }) (fun u => u.geo.live == .all 8) =
        true := by decide

theorem witness_noticeExpiry :
    (at' fun u => { u with notice := { u.notice with stack := [⟨.noSignal, some 5, true⟩] } }).sup.expiryOf .noSignal = some 5 := by
  decide

/-! ### The arbiter -/

/-- The running 7A with a change of the memory port, under the fallback charter or one of arbiter mode FIXED. -/
def waiting (fixed : Bool) (f : MemPort → MemPort) (ports : Sup → Sup) : Sup :=
  let u := ports running
  { u with
    charter := some { fallbackCharter with port := { fallbackCharter.port with fixedArbiter := fixed } }
    mp := f u.mp }

/-- A port that awaits a read of the word 00100H, where the first report record goes. -/
def reading (p : Port) (u : Sup) : Sup := withPort p (fun c => { c with collection := .awaiting (.read 0x100 1 none) }) u

def aReport : Report := { kind := .lit, subject := 0, uptime := 0, detail := 0 }

theorem witness_arbiterRings :
    (waiting false (fun m => { m with first := .lectern }) (reading .panel)).takesFirst .panel ∧
      (waiting true (fun m => { m with control := [(9, 1)] }) (fun u => reading .service (reading .lectern u))).takesFirst .internal ∧
      (waiting false (fun m => { m with second := .service }) (reading .campus)).takesFirst .group ∧
      (waiting false (fun m => { m with second := .service }) (reading .campus)).takesSecond .campus := by
  refine ⟨⟨rfl, ?_⟩, ⟨rfl, ?_⟩, ⟨rfl, ?_⟩, ⟨rfl, ?_⟩⟩ <;> intro n <;> cases n <;> decide

/-- ROTATING takes CAMPUS round the second ring and moves both pointers; FIXED takes INTERNAL first and moves none. -/
theorem test_arbiterModes :
    ((waiting false (fun m => { m with first := .group, second := .service }) (reading .campus)).grant.mp.first,
        (waiting false (fun m => { m with first := .group, second := .service }) (reading .campus)).grant.mp.second) =
      (.internal, .service) ∧
      (waiting true (fun m => { m with control := [(9, 1)] }) (reading .lectern)).grant.mp.access = some (.control 9 1) ∧
      (waiting true (fun m => { m with control := [(9, 1)] }) (reading .lectern)).grant.mp.first = .internal := by decide

/-- A read is held back by a queued write of its word: a control write, a release item, a report record. -/
theorem witness_heldBack :
    (waiting false id (reading .panel)).portReady .panel = true ∧
      (waiting false (fun m => { m with control := [(0x100, 1)] }) (reading .panel)).portReady .panel = false ∧
      (waiting false (fun m => { m with releases := [{ port := .campus, start := 0xFF, data := [1, 2] }] })
        (reading .panel)).portReady .panel = false ∧
      (waiting false (fun m => { m with reports := [aReport] }) (reading .panel)).portReady .panel = false := by decide

/-- INTERNAL's items in their order, and a record dropped at a full ring. -/
theorem witness_internalItems :
    (waiting false (fun m => { m with reads := [{ number := 4, reader := .entries, start := 0x3E010, length := 9, words := [] }] })
        id).grant.mp.access = some (.piece 4 0x3E010 8) ∧
      (waiting false (fun m => { m with releases := [{ port := .campus, start := 5, data := [1] }], reports := [aReport] })
        id).grant.mp.access = some (.release { port := .campus, start := 5, data := [1] }) ∧
      (waiting false (fun m => { m with reports := [aReport] }) id).grant.mp.access = some (.record 0x100 aReport) ∧
      (waiting false (fun m => { m with reports := [aReport] }) fun u => { u with ring := { u.ring with tail := 1 } }).grant.mp.access =
        some (.control 16 0x8001) ∧
      (waiting false (fun m => { m with reports := [aReport] }) fun u =>
        { u with ring := { u.ring with tail := 1, overflow := true } }).grant.mp.reports = [] := by decide

/-- FIXED comes into force at the charter load with the pointers at the first members, wherever ROTATING had moved them (R33). -/
theorem test_fixedAtLoad :
    asks .charterLoad
        { starting .charterLoad .power .charterStart (good (block.set 0x94 1 |>.set 2 23530)) with
          sup :=
            { (starting .charterLoad .power .charterStart (good (block.set 0x94 1 |>.set 2 23530))).sup with
              mp :=
                { (starting .charterLoad .power .charterStart (good (block.set 0x94 1 |>.set 2 23530))).sup.mp with
                  first := .group } } }
        (fun u => u.chart.port.fixedArbiter && u.mp.first == .internal) = true := by decide +kernel

/-! ### The release of held writes -/

/-- Entries held, as the first of them made with serial 0 and the next serials after it. -/
def holding (es : List HoldEntry) (u : Sup) : Sup := { u with hold := { entries := es, counter := 9, made := 9 } }

/-- An entry of CAMPUS with a serial, for a start, data and a condition. -/
def campusEntry (n start : Nat) (data : List Word) (c : Condition) : HoldEntry :=
  { port := .campus, start := start, data := data, window := 7, condition := c, time := 0, sequence := word n, serial := n }

theorem witness_release :
    (holding [campusEntry 2 0x1000 [5] .lock] running).entryMade 2 = some (campusEntry 2 0x1000 [5] .lock) ∧
      running.classify .campus 0x1000 [5] = .applied .forward ∧ running.classify .campus 0x20 [9] = .denied .record ∧
      (withWindows (holdWindows true) running).classify .campus 0x2000 [5] = .offered .lit 8 ∧
      running.classify .campus 0x20 [2] = .applied (.absorb (.light .normal)) ∧
      running.classify .campus 0x2A [31] = .applied (.absorb (.claim .campus .withdraw)) ∧
      running.classify .campus 0x21 [1] = .applied (.absorb (.mute .muted)) ∧
      running.classify .campus 0x30 [0] = .applied (.absorb (.trim (.all 0))) ∧
      running.classify .campus 0x22 [0, 0] = .applied (.absorb (.clock 0)) ∧ running.classify .campus 0x13 [0] = .applied .merge ∧
      running.sched.state ≠ .enabled := by decide

/-- The level falls from EXAM to OPEN at the end of the key debounce with two entries waiting for the lock. -/
def keyFalls : State :=
  at' fun u =>
    holding [campusEntry 1 0x1000 [5] .lock, campusEntry 2 0x20 [2] .lock]
      { u with lock := { u.lock with level := .exam, keyInterval := some 9 } }

theorem witness_levelRelease :
    keyFalls.sup.lock.keyInterval = some 9 ∧ keyFalls.serialLaw ∧ keyFalls.sup.lock.highest = .unlocked ∧
      asks .keyDebounceExpiry keyFalls (fun u => u.hold.entries.isEmpty && u.lamp.demand.level == .normal) = true := by
  refine ⟨rfl, ⟨by decide, by decide⟩, by decide, by decide⟩

theorem witness_litRelease :
    ({ lampIn .warming false with sup := holding [campusEntry 1 0x1000 [5] .lit] (lampIn .warming false).sup }).serialLaw ∧
      asks (.warmupExpiry .a) { lampIn .warming false with sup := holding [campusEntry 1 0x1000 [5] .lit] (lampIn .warming false).sup }
        (fun u => u.hold.entries.isEmpty) = true := by
  refine ⟨⟨by decide, by decide⟩, by decide⟩

/-- A timetable entry with a light request three minutes ahead. -/
def lesson (startMinute endMinute warning : Nat) : SlotEntry :=
  { startMinute := startMinute, endMinute := endMinute, level := .exam, claim := .withdraw, light := some .eco, lead := 3, grace := false
    preset := 1, warning := warning }

/-- The fall of the level takes three entries, numbered 8, 11 and 12 with the counter at 10 after a wrap, of which 8 is a CLOCK write that
starts a slot of level LECTERN, which the permit table opens to CAMPUS. -/
def nestedFall : State :=
  at' fun u =>
    { u with
      charter :=
        some
          { fallbackCharter with
            windows := holdWindows true, permit := { fallbackCharter.permit with lectern := ⟨true, true, true, true⟩ } }
      lock := { u.lock with level := .exam, keyInterval := some 9 }
      sched :=
        { u.sched with state := .enabled, loaded := [{ lesson 1 4 1 with level := .lectern, light := none, preset := 0, warning := 0 }] }
      hold :=
        { entries :=
            [{ campusEntry 0 0x22 [0, 1] .lock with sequence := 8 }, { campusEntry 1 0x2000 [5] .lock with sequence := 11 },
              { campusEntry 2 0x2001 [6] .lock with sequence := 12 }]
          counter := 10, made := 3 } }

/-- The inner announcement holds the two others again, as 10 and 11, and the outer set passes over them, though a number of its own set has
come round (R63, R73). -/
theorem test_releasedOnce :
    ((after .keyDebounceExpiry nestedFall).map fun t => (t.sup.hold.entries.map (·.sequence), t.sup.hold.counter, t.sup.lock.level)) =
      some ([10, 11], 12, .lectern) := by decide +kernel

/-! ### ALTERNATE lamps, records, the timetable -/

/-- The demand ON in ALTERNATE mode, lamp A the duty lamp in a state with two attempts behind it, lamp B in another. -/
def alternate (a b : LampState) : State :=
  at' fun u =>
    withLamp .b (fun c => { c with state := b })
      (withLamp .a (fun c => { c with state := a, attempts := 2, timer := some 3 })
        { u with lamp := { u.lamp with duty := some .a, demand := { level := .eco, setTime := 0 } } })

theorem witness_alternate :
    (at' id).sup.chart.lamp.dual = false ∧ (alternate .lit .dark).sup.transfers .a ∧ ¬(alternate .lit .failed).sup.transfers .a ∧
      fallbackCharter.lamp.attempts ≤ ((alternate .lit .dark).sup.lamp.lamps.get .a).attempts + 1 ∧
      asks (.lampokDeassert .a) (alternate .lit .dark)
        (fun u => u.lamp.duty == some .b && u.lamp.lamps.b.state == .striking && !u.lamp.noLamp) = true ∧
      asks (.strikeTimeout .a) (alternate .striking .failed) (fun u => u.lamp.duty == none && u.lamp.noLamp) = true ∧
      asks (.cooldownExpiry .a) (alternate .cooling .dark)
        (fun u => u.lamp.duty == some .a && u.lamp.lamps.a.state == .striking && u.lamp.lamps.b.state == .dark) = true := by
  refine ⟨rfl, ⟨rfl, by decide, rfl, by decide⟩, fun h => absurd h.2.2.2 (by decide), by decide, by decide, by decide, by decide⟩

/-- A window of each record class, and words at the ends of each clause's range. -/
theorem witness_recordWindows :
    (∀ c ∈ [WindowClass.light, .mute, .claim, .geometry, .clock, .status, .service], (fallbackWindow c 0 32).cls = c) ∧
      (0x87FF : Word).toNat % 32 = 31 ∧ (0x871F : Word).toNat / 32 % 8 = 0 ∧ (0x871F : Word).toNat / 2048 % 16 = 0 ∧
      (fallbackCharter.inputEntry 9).valid = true ∧ (fallbackCharter.inputEntry 10).valid = false ∧
      (0x1706 : Word).toNat = 23 * 256 + 6 ∧ (0x3B3B : Word).toNat = 59 * 256 + 59 ∧ (0x3B3C : Word).toNat = 59 * 256 + 60 ∧
      (0x4030 : Word).toNat = 16384 + 48 ∧ (0x4031 : Word).toNat = 16384 + 49 ∧
      (0xFE00 : Word).toInt = -512 ∧ (0x1FF : Word).toInt = 511 ∧ (0x200 : Word).toInt = 512 ∧
      (3 : Word).toNat = Port.service.code ∧ (1 : Word).toNat = Lamp.b.code := by decide

/-- A timetable of two lessons, the second prewarmed in the gap before it and warned of from its start. -/
def lessons (current : Option Nat) (u : Sup) : Sup :=
  { u with
    sched :=
      { u.sched with
        state := .enabled, count := 2, enable := true, current := current, loaded := [lesson 1 4 1, lesson 6 8 5] } }

theorem witness_timetable :
    (lesson 6 8 5).warnsBy 6 ∧ (clockAt 239 (lessons (some 0))).sup.nextToStart (lesson 6 8 5) 4 ∧
      (clockAt 239 (lessons (some 0))).sup.prewarmsAt (lesson 6 8 5) 4 ∧
      asks .secondTick (clockAt 239 (lessons (some 0))) (fun u => u.sched.current == none && u.lamp.demand.level == .eco) = true ∧
      asks .secondTick (clockAt 179 (lessons (some 0))) (fun u => u.sched.current == some 0 && u.sched.warned) = true ∧
      asks .secondTick (clockAt 359 (lessons none)) (fun u => u.sched.current == some 1 && u.sched.warned) = true := by
  refine ⟨⟨by decide, by decide⟩, ⟨by decide, by decide⟩, ⟨1, by decide, by decide, ?_, ?_⟩, by decide, by decide, by decide⟩
  · intro d hd
    fin_cases hd <;> decide
  · intro j hj h
    obtain rfl : j = 0 := by omega
    exact h (lesson 1 4 1) (by decide) (by decide)

/-- A load that ends with the clock SET, in a slot and in the gap before one. -/
def loadingAt (t : Nat) (words : List Word) : State :=
  { loading .running (good words) with
    sup := { (loading .running (good words)).sup with room := { timeOfWeek := t, isSet := true, uptime := 0 } } }

theorem witness_loadAtTime :
    (loadingAt 60 [0, 10080, 2, 31, 2, 0, 0, 0]).sup.sched.current = none ∧
      asks .scheduleLoadDone (loadingAt 60 [0, 10080, 2, 31, 2, 0, 0, 0])
        (fun u => u.sched.current == some 0 && u.lamp.demand.level == .normal && u.lock.level == .exam) = true ∧
      asks .scheduleLoadDone (loadingAt 60 [3, 10080, 2, 31, 0x0202, 0, 0, 0])
        (fun u => u.sched.current == none && u.lamp.demand.level == .normal) = true ∧
      asks .scheduleLoadDone (loadingAt 0 [3, 10080, 2, 31, 0x0202, 0, 0, 0])
        (fun u => u.sched.current == none && u.lamp.demand.level == .off) = true := by decide

theorem witness_priority :
    (fallbackCharter.priorityEntry 2).urgentMode = true ∧ (fallbackCharter.priorityEntry 1).urgentMode = false ∧
      effective fallbackCharter { source := some 1, cls := 2, urgent := true } = 3 := by decide

theorem witness_overlay :
    running.notice.stack = [] ∧
      ({ running with notice := { running.notice with stack := [] ++ [⟨.noSignal, none, true⟩], winningClass := some 5 } } : Sup).overlayValue =
        0 ∧
      ({ running with notice := { running.notice with stack := [] ++ [⟨.noSignal, none, true⟩] } } : Sup).overlayValue = 0x0C1B := by
  decide

/-- A FIXED arbiter with its pointers in place, and entries in the order they were made. -/
theorem witness_pointersAndSerials :
    ({ at' id with sup := waiting true id id }).arbiterLaw ∧ (waiting true id id).chart.port.fixedArbiter = true ∧
      keyFalls.serialLaw := by
  refine ⟨fun _ _ _ => ⟨rfl, rfl⟩, rfl, ⟨by decide, by decide⟩⟩

theorem witness_laws : ((match step (at' id) with | .next _ => true | _ => false) = true) ∧ (at' id).lockLaw ∧ (at' id).startLaw ∧ (at' id).slotLaw ∧ taken.lockLaw := by
  exact ⟨rfl, rfl, fun h => absurd rfl h, fun _ => ⟨rfl, rfl⟩, rfl⟩

/-- The running 7A with its corners at the fallback baseline. -/
def squared : State :=
  at' fun u =>
    { u with
      geo := { trim := .all 0, target := fallbackCharter.geometry.baseline, live := fallbackCharter.geometry.baseline, slewing := false } }

theorem witness_blockLaws :
    squared.memoryLaw ∧ squared.lampLaw ∧ squared.pictureLaw ∧ squared.holdLaw ∧ squared.sequenceLaw ∧ squared.noticeLaw ∧
      squared.inputLaw := by
  refine ⟨rfl, ⟨⟨fun h => absurd rfl h, (fun h => nomatch h)⟩, ⟨fun h => absurd rfl h, (fun h => nomatch h)⟩⟩,
    ⟨(fun h => nomatch h), (fun h => nomatch h), fun _ => rfl⟩, ⟨Nat.zero_le _, Nat.zero_le _, List.Pairwise.nil⟩,
    ⟨Nat.zero_le _, List.nodup_nil, List.not_mem_nil⟩,
    ⟨Nat.zero_le _, List.Pairwise.nil, List.Pairwise.nil, fun _ h => absurd h List.not_mem_nil, fun h => absurd rfl h, (fun _ h => nomatch h)⟩, rfl⟩

theorem witness_cornerLaw : squared.cornerLaw := by
  have h : ∀ i, i < 8 → fallbackCharter.geometry.minima.at i ≤ fallbackCharter.geometry.baseline.at i ∧
      fallbackCharter.geometry.baseline.at i ≤ fallbackCharter.geometry.maxima.at i := by decide
  refine ⟨fun ch hch i hi => ?_, fun _ => rfl, fun _ => ⟨h, h⟩⟩
  cases hch
  exact Int.le_trans (h i hi).1 (h i hi).2

/-! ### What the widened statements assume -/

/-- Whether a control write waits or is being done. -/
def queues (u : Sup) (a : Nat) (v : Word) : Bool := u.mp.control.contains (a, v) || u.mp.access == some (.control a v)

theorem witness_mapAndQueues :
    (at' id).mapLaw ∧ (at' id).memoryLaw ∧ (at' id).sup.charter.isSome = true ∧ (at' id).sup.startUp.step.takesTicks = true ∧ (at' id).queueLaw ∧
      (at' id).hotLaw ∧ (at' id).sup.startUp.step = .running := by
  refine ⟨?_, rfl, rfl, rfl, ⟨List.nodup_nil, by decide⟩, fun _ l => ?_, rfl⟩
  · intro ch h
    cases h
    decide
  · cases l <;> decide

/-- A step that changes LAMP_STATE and one that changes the header's mirror queue the new words. -/
theorem witness_changedWords :
    asks (.lightWrite .service 2) (at' id)
        (fun u => u.statusWord 2 != running.statusWord 2 && queues u (u.place .status 2) (u.statusWord 2)) = true ∧
      asks (.scheduleHeaderWrite .panel 5) (at' id) (fun u => u.sched.count == 5 && queues u scheduleBase 5) = true := by
  decide

/-- A clock set at each place of an enabled timetable: a slot entered, the same slot, one left for a gap in which the next is due for its
prewarm, and a gap in which it is not. -/
theorem witness_clockJump :
    (at' (lessons none)).sup.noneWaits .lock ∧ (at' (lessons none)).sup.sched.state = .enabled ∧
      asks (.clockSet .panel 0 1) (at' (lessons none))
        (fun u => u.sched.current == some 0 && u.lamp.demand.level == .eco && queues u (u.place .clock 1) 1) = true ∧
      asks (.clockSet .panel 0 3) (at' (lessons (some 0))) (fun u => u.sched.current == some 0 && u.sched.warned) = true ∧
      asks (.clockSet .panel 0 5) (at' (lessons (some 0))) (fun u => u.sched.current == none && u.lamp.demand.level == .eco) = true ∧
      asks (.clockSet .panel 0 8) (at' (lessons none)) (fun u => u.sched.current == none && u.lamp.demand.level == .off) = true := by
  refine ⟨(fun _ he => absurd he List.not_mem_nil), rfl, ?_⟩
  decide

/-- The mirrors a line reset reads back: the demand NORMAL, a claim of an input without a signal, LIVE_SELECT and LIVE_MUTE as given. -/
def mirrors (liveSelect liveMute : Word) : List ReadWord :=
  good ([2, 0x0100, 31, 31, 31, 0, liveSelect, liveMute] ++ List.replicate 16 0)

/-- The three states of the sequencer after a line reset, with a lamp struck for the demand. -/
theorem witness_rebuildLine :
    asks .rebuild (starting .rebuild .line .rebuild (mirrors 0 0)) (fun u => u.seq.state == .muting && u.lamp.lamps.a.state == .striking) =
        true ∧
      asks .rebuild (starting .rebuild .line .rebuild (mirrors 9 1)) (fun u => u.seq.state == .settling) = true ∧
      asks .rebuild (starting .rebuild .line .rebuild (mirrors 9 0)) (fun u => u.seq.state == .idle) = true ∧
      (starting .rebuild .line .rebuild (mirrors 0 0)).sup.trimBack? (good (List.replicate 8 0x0200)) = none ∧
      (∀ k, ((starting .rebuild .power .rebuild []).sup.source.claims.get k).word.source = none) := by
  refine ⟨by decide +kernel, by decide +kernel, by decide +kernel, by decide +kernel, fun k => ?_⟩
  cases k <;> rfl

/-- At that rebuild the sequencer takes the new target before the NO_SIGNAL condition is judged: LIVE_MUTE is queued ahead of OVERLAY
(R127). -/
theorem test_targetBeforeNoSignal :
    ((after .rebuild (starting .rebuild .line .rebuild (mirrors 0 0))).map fun t =>
      (t.sup.mp.control.map (·.1)).filter fun a => a == t.sup.place .status 4 || a == t.sup.place .status 5) = some [4, 5] := by decide

/-- A failed lamp cleared, and one replaced, with the demand ON: each is struck. -/
theorem witness_mendWithDemand :
    (alternate .failed .failed).lampLaw ∧ (alternate .cooling .failed).lampLaw ∧
      asks (.lampClear .service 1) (alternate .failed .failed) (fun u => u.lamp.duty == some .b && u.lamp.lamps.b.state == .striking) =
        true ∧
      asks (.lampReplace .service 1 77) (alternate .failed .failed)
        (fun u => u.lamp.lamps.b.state == .striking && u.wear.lamps.b.wear == 1800 && u.wear.lamps.b.strikes == 1) = true ∧
      asks (.cooldownExpiry .a) (alternate .cooling .failed) (fun u => u.lamp.lamps.a.state == .striking) = true := by
  refine ⟨⟨⟨fun h => absurd rfl h, (fun h => nomatch h)⟩, ⟨fun h => absurd rfl h, (fun h => nomatch h)⟩⟩,
    ⟨⟨fun h => absurd rfl h, (fun h => nomatch h)⟩, ⟨fun h => absurd rfl h, (fun h => nomatch h)⟩⟩, ?_⟩
  decide

/-- Lamp A LIT at NORMAL with its record loaded, at a wear and in a stage, the demand at a level. -/
def worn (wear : Nat) (stage : LifeStage) (v : LightLevel) : State :=
  at' fun u =>
    withLamp .a (fun c => { c with state := .lit, command := .normal })
      (demand v (u.setWear .a { WearCell.reset with wear := wear, stage := stage, loaded := true }))

/-- Ticks into WORN and into SPENT, and a boundary of the clock. -/
theorem witness_lifeStages :
    asks .secondTick (worn 107999990 .fresh .normal)
        (fun u => u.wear.lamps.a.stage == .worn && u.notice.stack.length == 1 && u.wear.lamps.a.record == lampRecordWords .a u.wear.lamps.a) =
        true ∧
      asks .secondTick (worn 143999990 .worn .normal) (fun u => u.wear.lamps.a.stage == .spent && u.ring.attention.lamp) = true ∧
      fallbackCharter.lamp.warnHours < fallbackCharter.lamp.limitHours ∧
      (stageOf fallbackCharter.lamp 107999999, stageOf fallbackCharter.lamp 108000000, stageOf fallbackCharter.lamp 144000000) =
        (.fresh, .worn, .spent) ∧
      (((worn 144000000 .fresh .normal).sup.judgeStage Sup.strikeDecision .a).mp.reports.map (·.kind)) = [.worn, .spent] ∧
      asks .secondTick (clockAt 59 id) (fun u => queues u (u.place .clock 1) 1) = true := by
  decide

/-- The notice stack with entries of these kinds, live but for the last where `dead`, and kinds pending. -/
def noticing (kinds pending : List NoticeKind) (dead : Bool) : State :=
  at' fun u =>
    { u with
      notice :=
        { u.notice with
          stack := (kinds.map fun k => ⟨k, none, true⟩) ++ (if dead then [⟨.noSignal, none, false⟩] else []), pending := pending } }

/-- The four cases of a raise, and pending kinds pushed, the lowest code first. -/
theorem witness_raises :
    let six : List NoticeKind := [.lampFailed, .lampWorn, .noLamp, .noSignal, .examLock, .serviceTakeover]
    (noticing six [.slotEnding] false).noticeLaw ∧
      ((noticing six [] false).sup.raiseNotice .slotEnding).notice.pending = [.slotEnding] ∧
      ((noticing six [.slotEnding] false).sup.raiseNotice .slotEnding).notice.pending = [.slotEnding] ∧
      ((noticing six [] false).sup.raiseNotice .noLamp).notice.stack.length = 6 ∧
      ((noticing [] [] false).sup.raiseNotice .noLamp).notice.stack = [⟨.noLamp, none, true⟩] ∧
      ((noticing [.noLamp] [.examLock, .lampWorn] true).sup.settleStack.notice.stack.map (·.kind)) =
        [.noLamp] ++ (noticing [.noLamp] [.examLock, .lampWorn] true).sup.notice.pending := by
  refine ⟨⟨by decide, by decide, by decide, by decide, fun _ => by decide, ?_⟩, by decide, by decide, by decide, by decide, by decide⟩
  intro e he
  cases he
  rfl

/-! ### Judgements of what memory holds -/

/-- The charter block with one word changed and its checksum mended. -/
def changed (offset : Nat) (w : Word) : List ReadWord :=
  good ((block.set offset w).set 2 ((block.getD 2 0) + (block.getD offset 0) - w))

/-- A block of 1024 words that passes, and words just outside a range, at the check each belongs to. -/
theorem witness_charterChecks :
    (good block).length = 1024 ∧
      ([(0x13, 17), (0x90, 0), (0x9C, 241), (0xA5, 4000), (0xCF, 10), (0xD0, 17), (0xE0, 0), (0x118, 479), (0x140, 61), (0x14A, 48),
            (0x150, 481)].map fun e => failed (judgeCharter (changed e.1 (BitVec.ofNat 16 e.2)))) =
        [CharterCheck.windows, .ports, .permit, .lamp, .sources, .signals, .notices, .geometry, .schedule, .ring, .hold].map some ∧
      failed (judgeCharter (good (block.set 3 1))) = some .checksum ∧
      ((judgeCharter (changed 0x150 480)).toOption.map (·.holdMinutes)) = some 480 := by
  decide +kernel

/-- A lamp record whose wear is just that of its strikes, one short of it, one of the other lamp; and shutdown records. -/
theorem witness_retainedChecks :
    ((judgeLampRecord .a (good [0x7A12, 0x0102, 9, 3600, 0, 0, 0, 2])).toOption.map fun c => (c.stage, c.strikeFailures, c.dropouts, c.wear)) =
        some (.spent, 1, 2, 3600) ∧
      failed (judgeLampRecord .a (good [0x7A12, 0x0102, 9, 3599, 0, 0, 0, 2])) = some 2 ∧
      failed (judgeLampRecord .b (good [0x7A12, 0x0102, 9, 3600, 0, 0, 0, 2])) = some 2 ∧
      failed (judgeLampRecord .a [⟨0x7A10, true⟩]) = some 1 ∧
      (judgeShutdown (good [0x5D7A, 3, 7, 1])).toOption = some (⟨true, true⟩, 7, .line) ∧
      failed (judgeShutdown (good [0x5D7A, 0, 7, 2])) = some 2 := by
  decide

/-- Entries at the ends of the ranges, out of range, of bad parity, and one that starts before the one before it has ended. -/
theorem witness_entryChecks :
    ((judgeEntry fallbackCharter none (good [10079, 10080, 0x4102, 0x8709, 0x1E03, 15, 0, 0])).toOption.map fun e =>
        (e.preset, e.lead, e.claim.source)) = some (4, 30, some 9) ∧
      failed (judgeEntry fallbackCharter none (good [10079, 10081, 0, 31, 0, 0, 0, 0])) = some .range ∧
      failed (judgeEntry fallbackCharter none (good [0, 1, 0, 10, 0, 0, 0, 0])) = some .range ∧
      failed (judgeEntry fallbackCharter none [⟨0, true⟩]) = some .parity ∧
      failed (judgeEntry fallbackCharter (some (lesson 1 4 1)) (good [3, 9, 0, 31, 0, 0, 0, 0])) = some .order ∧
      (judgeEntry fallbackCharter (some (lesson 1 4 1)) (good [4, 9, 0, 31, 0, 0, 0, 0])).toOption.isSome = true ∧
      failed (judgeEntries fallbackCharter 2 0 none (good [1, 4, 0, 31, 0, 0, 0, 0, 3, 9, 0, 31, 0, 0, 0, 0])) = some (1, .order) := by
  decide

/-! ### Steps 6 and 7 of a classification, the ring, targets and ticks -/

/-- The lit check of window 8 with both lamps DARK and with one LIT, and the lock check of the SCHEDULE window. -/
theorem witness_lastChecks :
    (dark true 0 []).sup.stepFive (.configured 8) .panel 0x2000 [1] = .ok .forward ∧
      (dark true 0 []).sup.classify .panel 0x2000 [1] = .offered .lit 8 ∧
      (withLamp .b (fun c => { c with state := .lit }) (dark true 0 []).sup).classify .panel 0x2000 [1] = .applied .forward ∧
      windowAt fallbackCharter.windows 0x3E000 = .schedule ∧
      (at' id).sup.classify .panel 0x3E000 [5] = .applied (.absorb (.header 5 false)) ∧
      (at' exam).sup.stepFive .schedule .panel 0x3E000 [5] = .ok (.absorb (.header 5 false)) ∧
      (at' exam).sup.classify .panel 0x3E000 [5] = .denied .locked ∧
      (at' exam).sup.classify .service 0x3F000 [5] = .applied .forward := by
  decide

/-- MEMORY_ACCESS_DONE at a free memory port, the ring full and a report waiting: the RING_TAIL word with the overflow flag is begun and
ended by the one command, so memory holds it and no control write of it is left. -/
theorem witness_overflowWritten :
    let s := at' fun u => { u with ring := { u.ring with head := 63 }, mp := { u.mp with reports := [aReport] } }
    s.memoryLaw ∧ s.sup.mp.access = none ∧
      ((after (.memoryAccessDone []) s).map fun t =>
          (t.sup.statusWord 16, t.mem.read (t.sup.place .status 16), queues t.sup (t.sup.place .status 16) 0x8000)) =
        some (0x8000, 0x8000, false) := by
  refine ⟨rfl, rfl, ?_⟩
  decide

/-- A full ring whose tail is written with the value it holds, with a report waiting: the overflow flag is cleared all the same, since
the RING_TAIL word is served before the report. -/
theorem witness_ringTailFull :
    let s := at' fun u => { u with ring := { u.ring with head := 63, overflow := true }, mp := { u.mp with reports := [aReport] } }
    s.sup.ringFull = true ∧ s.sup.applies .panel (s.sup.place .status 16) [0] .merge ∧
      asks (.ringTail .panel 0) s
        (fun u => u.ringFull && !u.ring.overflow && u.mp.reports == [aReport] && queues u (u.place .status 16) 0) = true := by
  refine ⟨by decide, ⟨rfl, ⟨rfl, rfl⟩, by decide⟩, by decide⟩

/-- The sequencer in a state with a target that differs from LIVE_SELECT. -/
def targeted (st : SeqState) : Sup :=
  { (sequencing st 3).sup with source := { (sequencing st 3).sup.source with target := .slate, winner := some .campus } }

theorem witness_takeTarget :
    (targeted .idle).source.target ≠ (targeted .idle).seq.liveSelect ∧
      ([SeqState.idle, .muting, .settling, .revealing].map fun st =>
          ((targeted st).takeTarget.seq.state, (targeted st).takeTarget.seq.liveSelect, (targeted st).takeTarget.seq.counter)) =
        [(.muting, .blank, 3), (.muting, .blank, 3), (.settling, .slate, 12), (.revealing, .blank, 3)] ∧
      (targeted .settling).takeTarget.mp.reports.map (·.kind) = [.switched] := by
  decide

/-- A claim of an input without a signal raises NO_SIGNAL, and its withdrawal ends it. -/
theorem witness_noSignal :
    asks (.claimWrite .panel 0 0x0100) (at' id) (fun u => u.source.noSignal && u.notice.stack.any fun e => e.kind == .noSignal) = true ∧
      ((after (.claimWrite .panel 0 0x0100) (at' id)).map fun t =>
          asks (.claimWrite .panel 0 31) t (fun u => !u.source.noSignal && u.notice.stack.isEmpty)) = some true := by
  decide

/-- The addresses of LIVE_MUTE and of the first live corner, in the order in which a supervisor has queued them. -/
def tickWrites (u : Sup) : List Nat := (u.mp.control.map (·.1)).filter fun a => a == 4 || a == 6

/-- The two orders of the tick at which SETTLING ends in CLEAR, with the corners SLEWING: each unit's writes stand behind those of the
unit that took the tick first, and the jump is made in either (R139, R162). -/
theorem test_tickOrders :
    let u : Sup :=
      { (sequencing .settling 1).sup with
        seq := { (sequencing .settling 1).sup.seq with liveMute := .muted }
        geo := { running.geo with target := .all 99, slewing := true } }
    u.tickSequencer.seq.liveMute = .clear ∧ tickWrites u.tickSequencerFirst = [4, 6] ∧ u.tickSequencerFirst.geo.live = .all 8 ∧
      tickWrites u.tickGeometryFirst = [6, 4] ∧ u.tickGeometryFirst.geo.live = .all 99 := by
  decide

/-- A reload by which LIGHT moves: its mirror is queued at its new place, with the CHARTER word. -/
theorem witness_reloadMoves :
    let s : State :=
      { starting .running .power .charterReload (good block) with
        sup :=
          { withWindows (fallbackWindow .light 0x3000 1 :: fallbackCharter.windows.eraseIdx 1)
              (demand .eco (starting .running .power .charterReload (good block)).sup) with
            reloading := true } }
    s.sup.place .light 0 = 0x3000 ∧
      asks .charterReloadReadDone s (fun u => u.place .light 0 == 0x20 && queues u 0x20 1 && queues u 24 (u.statusWord 24) &&
        (u.mp.reports.getLast?.map (·.kind)) == some .charterLoaded && u.lamp.lamps.a.state == .striking) = true := by
  refine ⟨by decide, by decide +kernel⟩

/-! ### Windows, reports and levels -/

/-- Two PLAIN windows that overlap, the first without bursts, and a record window of each class that has a length of its own. -/
def overlapping : List Window :=
  [{ fallbackWindow .plain 0x100 0x10 with bursts := false }, { fallbackWindow .plain 0x100 0x20 with bursts := true },
    fallbackWindow .geometry 0x10 8, fallbackWindow .clock 0x18 2, fallbackWindow .service 0x20 8, unusedWindow]

/-- The words at the ends of each built-in range, and of windows that overlap. -/
theorem witness_windowOfWord :
    ([0x3BFFF, 0x3C000, 0x3DFFF, 0x3E000, 0x3E1FF, 0x3E200, 0x3EFFF, 0x3F000, 0x3F3FF, 0x3F400, 0x3FF00, 0x3FF1F, 0x3FF20].map
        (windowAt overlapping)) =
      [.default, .retainedPlain, .retainedPlain, .schedule, .schedule, .retainedPlain, .retainedPlain, .charter, .charter,
        .retainedPlain, .retained, .retained, .retainedPlain] ∧
      ([0x0, 0xFF, 0x100, 0x10F, 0x110, 0x11F, 0x120, 0x17].map (windowAt overlapping)) =
        [.default, .default, .configured 0, .configured 0, .configured 1, .configured 1, .default, .configured 2] := by decide

/-- The longest length that passes, at the ends of each clause's range. -/
theorem witness_lengths :
    ([WindowId.configured 0, .configured 1, .configured 2, .default].map fun w =>
        (List.range 10).filter fun n => readLengthOk overlapping w n) = [[1], [1, 2, 3, 4, 5, 6, 7, 8], [1, 2, 3, 4, 5, 6, 7, 8],
          [1, 2, 3, 4, 5, 6, 7, 8]] ∧
      ([(2, 0x10), (2, 0x17), (3, 0x18), (3, 0x19), (4, 0x20), (4, 0x22), (4, 0x23), (4, 0x25)].map fun e =>
          ([1, 2, 3, 8].filter fun n => writeLengthOk overlapping (.configured e.1) e.2 n)) =
        [[1, 2, 3, 8], [1], [2], [], [1], [2], [], [1]] ∧
      ([0x3E000, 0x3E001, 0x3E010, 0x3E017, 0x3E18F, 0x3E190].map fun a =>
          ([1, 2, 3, 8].filter fun n => writeLengthOk overlapping .schedule a n)) =
        [[1], [1, 2, 3, 8], [1, 2, 3, 8], [1], [1], [1, 2, 3, 8]] := by decide

/-- A write that times out at the fault limit of an isolated port, with one of its writes held: three reports, in their order, into a
queue with room for them and a ring that is not full. -/
theorem witness_quarantineReports :
    let s := at' fun u =>
      { withPort .panel (fun c => { c with collection := .collecting 5 2 [], timer := some 3, faults := 14 }) u with
        hold := { u.hold with entries := [held 4] } }
    s.sup.mp.reports.length + 3 ≤ 16 ∧
      asks (.beatTimeout .panel) s (fun u => !u.ringFull && (u.mp.reports.map fun r => (r.kind, r.subject)) ==
        [(.beatTimeout, 0), (.quarantined, 0), (.torn, (held 4).window)]) = true := by decide

/-- A port read over a word that fails, with its report; and a piece of an internal read whose second word fails. -/
theorem witness_failingWords :
    asks (.memoryAccessDone [0x2000F]) (at' fun u => { u with mp := { u.mp with access := some (.port .campus (.read 0x2000E 2 none)) } })
        (fun u => !u.ringFull && (u.mp.reports.map fun r => (r.kind, r.subject, r.detail)) == [(.parity, 0x22, 0xF)]) = true ∧
      asks (.memoryAccessDone [0x3FF01])
        (at' fun u =>
          { u with
            mp :=
              { u.mp with
                access := some (.piece 7 0x3FF00 2)
                reads := [{ number := 7, reader := .records, start := 0x3FF00, length := 20, words := [] }] } })
        (fun u => u.mp.reads.map (·.words) == [[⟨0, false⟩, ⟨0, true⟩]]) = true := by decide

/-- A takeover that starts and one that ends: the level changes, with room in the report queue, and the notice follows it. -/
theorem witness_levelChange :
    asks (.takeoverStart .service) (at' id) (fun u => u.lock.level == .service && !u.ringFull &&
        (u.mp.reports.map fun r => (r.kind, r.subject, r.detail)) == [(.lockChanged, 3, 0)] &&
        u.notice.stack.any fun e => e.live && e.kind == .serviceTakeover) = true ∧
      asks (.takeoverEnd .service)
        (at' fun u =>
          { u with
            lock := { u.lock with takeover := some 9, level := .service }
            notice := { u.notice with stack := [⟨.serviceTakeover, none, true⟩] } })
        (fun u => u.lock.level == .unlocked && u.notice.stack.isEmpty && (u.mp.reports.map (·.subject)) == [0]) = true := by decide

/-- An end below the top of the stack leaves the entries above it, and its own dead in its place. -/
theorem witness_endBelowTop :
    ((noticing [.noLamp, .examLock] [] false).sup.endNotice .noLamp).notice.stack = [⟨.noLamp, none, false⟩, ⟨.examLock, none, true⟩] := by
  decide

end Sys2Proof.Tests
end

section
/-! PROOF. Held writes (R55 to R70): the part of the state that the hold table's limits speak of, the moves that change it, and the
laws that every move keeps. That a step makes no other change of it is shown below, block by block; the two statements then follow from
the moves alone. -/

namespace Sys2Proof.Machine

/-! ### The held writes of a state -/

/-- The hold table, the release queue, and the pool words of the release item being written (R57, R37). -/
structure HoldView where
  table : HoldTable
  releases : List ReleaseItem
  inAccess : Nat

def Sup.holdView (s : Sup) : HoldView :=
  { table := s.hold, releases := s.mp.releases, inAccess := wordsInAccess s.mp.access }

/-- Pool words in use, as `Sup.poolInUse` counts them. -/
def HoldView.pool (v : HoldView) : Nat := wordsOfEntries v.table.entries + wordsOfReleases v.releases + v.inAccess

/-- The entries a test admits stay. -/
def HoldView.keep (v : HoldView) (test : HoldEntry → Bool) : HoldView :=
  { v with table.entries := v.table.entries.filter test }

/-- A new entry, as `Sup.addEntry` makes it. -/
def HoldView.enter (v : HoldView) (p : Port) (start : Nat) (data : List Word) (window : Nat) (c : Condition) (now : Uptime) :
    HoldView :=
  let es := v.table.entries ++
    [{ port := p, start := start, data := data, window := window, condition := c, time := now
       sequence := v.table.counter, serial := v.table.made }]
  { v with
    table :=
      { entries := es
        counter := nextSequence (es.map (·.sequence)) (es.length + 1) (v.table.counter + 1)
        made := v.table.made + 1 } }

theorem Sup.holdView_pool (s : Sup) : s.holdView.pool = s.poolInUse := rfl

/-- The view of a supervisor written out as a record, for updates of other fields. -/
@[simp] theorem Sup.holdView_mk (time ticket lines startUp charter isFallback reloading admission ports mp lock hold lamp wear source seq
    notice geo room sched ring) :
    (Sup.mk time ticket lines startUp charter isFallback reloading admission ports mp lock hold lamp wear source seq notice geo room
      sched ring).holdView = ⟨hold, mp.releases, wordsInAccess mp.access⟩ := rfl

@[simp] theorem Sup.holdView_eta (s : Sup) : HoldView.mk s.hold s.mp.releases (wordsInAccess s.mp.access) = s.holdView := rfl

theorem Sup.dropEntry_holdView (s : Sup) (p : Port) (start : Nat) :
    (s.dropEntry p start).holdView = s.holdView.keep fun e => !e.isOf p start := rfl

theorem Sup.removeEntry_holdView (s : Sup) (q : Word) : (s.removeEntry q).holdView = s.holdView.keep fun e => e.sequence != q := rfl

theorem Sup.addEntry_holdView (s : Sup) (p : Port) (start : Nat) (data : List Word) (window : Nat) (c : Condition) :
    (s.addEntry p start data window c).holdView = s.holdView.enter p start data window c s.room.uptime := rfl

/-! ### The moves -/

/-- What can happen to the held writes at once. -/
inductive HoldMove (v : HoldView) : HoldView → Prop
  /-- Entries leave: superseded, expired, torn down, or released (R61, R65, R69, R70). -/
  | leave (test : HoldEntry → Bool) : HoldMove v (v.keep test)
  /-- Items of the release queue are overtaken (R61). -/
  | overtake (test : ReleaseItem → Bool) : HoldMove v { v with releases := v.releases.filter test }
  /-- A write that passes the room test is held (R59, R61). -/
  | hold (p : Port) (start : Nat) (data : List Word) (window : Nat) (c : Condition) (now : Uptime)
      (entries : (v.keep fun e => !e.isOf p start).table.entries.length < Config.holdEntries)
      (words : (v.keep fun e => !e.isOf p start).pool + data.length ≤ Config.poolWords) :
      HoldMove v ((v.keep fun e => !e.isOf p start).enter p start data window c now)
  /-- A released write is held again (R65). -/
  | holdAgain (e : HoldEntry) (window : Nat) (c : Condition) (now : Uptime) (held : e ∈ v.table.entries) :
      HoldMove v ((v.keep fun d => d.sequence != e.sequence).enter e.port e.start e.data window c now)
  /-- A released write goes to the release queue (R65, R37). -/
  | forward (e : HoldEntry) (held : e ∈ v.table.entries) :
      HoldMove v
        { v.keep fun d => d.sequence != e.sequence with
          releases := v.releases ++ [{ port := e.port, start := e.start, data := e.data }] }
  /-- The write of a release item begins (R37). -/
  | begin (item : ReleaseItem) (rest : List ReleaseItem) (idle : v.inAccess = 0) (front : v.releases = item :: rest) :
      HoldMove v { v with releases := rest, inAccess := item.data.length }
  /-- An access ends. -/
  | finish : HoldMove v { v with inAccess := 0 }
  /-- A reset empties the table and the release queue (R74, R40). -/
  | reset : HoldMove v { table := { entries := [], counter := 0, made := 0 }, releases := [], inAccess := 0 }

/-- Any number of moves. -/
def HoldMoves : HoldView → HoldView → Prop := Relation.ReflTransGen HoldMove

theorem HoldMoves.refl (v : HoldView) : HoldMoves v v := Relation.ReflTransGen.refl

theorem HoldMoves.trans {u v w : HoldView} (h : HoldMoves u v) (h' : HoldMoves v w) : HoldMoves u w := Relation.ReflTransGen.trans h h'

theorem HoldMove.moves {v w : HoldView} (h : HoldMove v w) : HoldMoves v w := Relation.ReflTransGen.single h

/-- What every move keeps, any number of moves keeps. -/
theorem HoldMoves.keeps {law : HoldView → Prop} (hlaw : ∀ {v w}, HoldMove v w → law v → law w) {v w : HoldView}
    (h : HoldMoves v w) (hv : law v) : law w := by
  induction h with
  | refl => exact hv
  | tail _ move ih => exact hlaw move ih

/-! ### Numbers of entries and words -/

theorem wordsOfEntries_append (es fs : List HoldEntry) : wordsOfEntries (es ++ fs) = wordsOfEntries es + wordsOfEntries fs := by
  simp [wordsOfEntries]

theorem wordsOfEntries_filter_le (es : List HoldEntry) (test : HoldEntry → Bool) : wordsOfEntries (es.filter test) ≤ wordsOfEntries es :=
  (List.filter_sublist.map _).sum_le_sum fun _ _ => Nat.zero_le _

theorem wordsOfReleases_filter_le (rs : List ReleaseItem) (test : ReleaseItem → Bool) :
    wordsOfReleases (rs.filter test) ≤ wordsOfReleases rs :=
  (List.filter_sublist.map _).sum_le_sum fun _ _ => Nat.zero_le _

theorem HoldView.keep_pool_le (v : HoldView) (test : HoldEntry → Bool) : (v.keep test).pool ≤ v.pool :=
  Nat.add_le_add_right (Nat.add_le_add_right (wordsOfEntries_filter_le _ _) _) _

theorem HoldView.enter_pool (v : HoldView) (p : Port) (start : Nat) (data : List Word) (window : Nat) (c : Condition) (now : Uptime) :
    (v.enter p start data window c now).pool = v.pool + data.length := by
  simp only [HoldView.pool, HoldView.enter, wordsOfEntries_append]
  simp only [wordsOfEntries, List.map_cons, List.map_nil, List.sum_singleton]
  omega

theorem HoldView.enter_length (v : HoldView) (p : Port) (start : Nat) (data : List Word) (window : Nat) (c : Condition) (now : Uptime) :
    (v.enter p start data window c now).table.entries.length = v.table.entries.length + 1 := List.length_append

theorem HoldView.keep_length_le (v : HoldView) (test : HoldEntry → Bool) : (v.keep test).table.entries.length ≤ v.table.entries.length :=
  List.length_filter_le _ _

/-- An entry that goes makes room for one. -/
theorem HoldView.without_length_lt {v : HoldView} {e : HoldEntry} (he : e ∈ v.table.entries) :
    (v.keep fun d => d.sequence != e.sequence).table.entries.length < v.table.entries.length :=
  List.length_filter_lt_length_iff_exists.2 ⟨e, he, by simp⟩

/-- An entry that goes gives back its words. -/
theorem HoldView.without_pool_le {v : HoldView} {e : HoldEntry} (he : e ∈ v.table.entries) :
    (v.keep fun d => d.sequence != e.sequence).pool + e.data.length ≤ v.pool := by
  have hsum : wordsOfEntries (v.table.entries.filter fun d => d.sequence != e.sequence) + e.data.length ≤ wordsOfEntries v.table.entries := by
    obtain ⟨es, fs, hsplit⟩ := List.append_of_mem he
    have hes := wordsOfEntries_filter_le es fun d => d.sequence != e.sequence
    have hfs := wordsOfEntries_filter_le fs fun d => d.sequence != e.sequence
    have hcons : ∀ ds : List HoldEntry, wordsOfEntries (e :: ds) = e.data.length + wordsOfEntries ds := fun ds => by simp [wordsOfEntries]
    rw [hsplit, List.filter_append, List.filter_cons_of_neg (by simp), wordsOfEntries_append, wordsOfEntries_append, hcons]
    omega
  simp only [HoldView.pool, HoldView.keep]
  omega

/-! ### The limits of the table (R57) -/

/-- `State.holdLaw` of a view. -/
def HoldView.limits (v : HoldView) : Prop :=
  v.table.entries.length ≤ Config.holdEntries ∧ v.pool ≤ Config.poolWords ∧
    v.table.entries.Pairwise fun d e => ¬(d.port = e.port ∧ d.start = e.start)

theorem State.holdLaw_iff_limits (s : State) : s.holdLaw ↔ s.sup.holdView.limits := Iff.rfl

/-- A new entry of a port and start address that no entry has. -/
theorem HoldView.enter_pairwise {v : HoldView} (h : v.table.entries.Pairwise fun d e => ¬(d.port = e.port ∧ d.start = e.start))
    {p : Port} {start : Nat} (data : List Word) (window : Nat) (c : Condition) (now : Uptime)
    (hnew : ∀ d ∈ v.table.entries, ¬(d.port = p ∧ d.start = start)) :
    (v.enter p start data window c now).table.entries.Pairwise fun d e => ¬(d.port = e.port ∧ d.start = e.start) :=
  List.pairwise_append.2 ⟨h, List.pairwise_singleton _ _, fun d hd _ he => List.mem_singleton.1 he ▸ hnew d hd⟩

/-- In a table of distinct ports and start addresses, no other entry has those of an entry. -/
theorem HoldView.without_distinct {v : HoldView} (h : v.table.entries.Pairwise fun d e => ¬(d.port = e.port ∧ d.start = e.start))
    {e : HoldEntry} (he : e ∈ v.table.entries) :
    ∀ d ∈ (v.keep fun d => d.sequence != e.sequence).table.entries, ¬(d.port = e.port ∧ d.start = e.start) := by
  intro d hd
  obtain ⟨hmem, hseq⟩ := List.mem_filter.1 hd
  have hne : d ≠ e := fun heq => by simp [heq] at hseq
  have hsymm : Std.Symm fun d e : HoldEntry => ¬(d.port = e.port ∧ d.start = e.start) := ⟨fun _ _ h h' => h ⟨h'.1.symm, h'.2.symm⟩⟩
  exact h.forall hmem he hne

theorem HoldMove.keeps_limits {v w : HoldView} (move : HoldMove v w) (h : v.limits) : w.limits := by
  obtain ⟨hlen, hpool, hpair⟩ := h
  cases move with
  | leave test => exact ⟨(v.keep_length_le test).trans hlen, (v.keep_pool_le test).trans hpool, hpair.filter _⟩
  | overtake test =>
    refine ⟨hlen, le_trans ?_ hpool, hpair⟩
    exact Nat.add_le_add_right (Nat.add_le_add_left (wordsOfReleases_filter_le _ _) _) _
  | hold p start data window c now entries words =>
    refine ⟨(HoldView.enter_length ..).trans_le entries, (HoldView.enter_pool ..).trans_le words, ?_⟩
    refine HoldView.enter_pairwise (hpair.filter _) data window c now fun d hd => ?_
    have hother := (List.mem_filter.1 hd).2
    simpa [HoldEntry.isOf, imp_iff_not_or] using hother
  | holdAgain e window c now held =>
    refine ⟨(HoldView.enter_length ..).trans_le ((HoldView.without_length_lt held).trans_le hlen),
      (HoldView.enter_pool ..).trans_le ((HoldView.without_pool_le held).trans hpool), ?_⟩
    exact HoldView.enter_pairwise (hpair.filter _) _ window c now (HoldView.without_distinct hpair held)
  | forward e held =>
    refine ⟨(v.keep_length_le _).trans hlen, ?_, hpair.filter _⟩
    have hfree := (HoldView.without_pool_le held).trans hpool
    simp only [HoldView.pool, HoldView.keep, wordsOfReleases, List.map_append, List.sum_append, List.map_cons, List.map_nil,
      List.sum_singleton] at hfree ⊢
    omega
  | begin item rest idle front =>
    refine ⟨hlen, ?_, hpair⟩
    simp only [HoldView.pool, wordsOfReleases, front, idle, List.map_cons, List.sum_cons] at hpool ⊢
    omega
  | finish => exact ⟨hlen, (Nat.add_le_add_left (Nat.zero_le _) _).trans hpool, hpair⟩
  | reset => exact ⟨Nat.zero_le _, Nat.zero_le _, List.Pairwise.nil⟩

/-! ### Sequence numbers (R56) -/

/-- The search from `c` stops at the first number not used, after the used ones it passes, if that comes within the tries. -/
theorem nextSequence_skips (used : List Word) (tries : Nat) (c : Word) :
    ∃ k, k ≤ tries ∧ nextSequence used tries c = c + BitVec.ofNat 16 k ∧
      (∀ j, j < k → c + BitVec.ofNat 16 j ∈ used) ∧ (k < tries → c + BitVec.ofNat 16 k ∉ used) := by
  induction tries generalizing c with
  | zero => exact ⟨0, le_rfl, by simp [nextSequence], fun j hj => absurd hj (Nat.not_lt_zero j), fun h => absurd h (Nat.lt_irrefl 0)⟩
  | succ tries ih =>
    by_cases hc : c ∈ used
    · obtain ⟨k, hk, hnext, hused, hfree⟩ := ih (c + 1)
      have hshift : ∀ j, c + 1 + BitVec.ofNat 16 j = c + BitVec.ofNat 16 (j + 1) := fun j => by
        rw [BitVec.add_assoc, BitVec.add_comm 1, BitVec.ofNat_add]; rfl
      refine ⟨k + 1, Nat.succ_le_succ hk, ?_, fun j hj => ?_, fun hlt => hshift k ▸ hfree (Nat.lt_of_succ_lt_succ hlt)⟩
      · rw [nextSequence, if_pos (List.contains_iff_mem.2 hc), hnext, hshift]
      · cases j with
        | zero => simpa using hc
        | succ j => exact hshift j ▸ hused j (Nat.lt_of_succ_lt_succ hj)
    · refine ⟨0, Nat.zero_le _, ?_, fun j hj => absurd hj (Nat.not_lt_zero j), fun _ => by simpa using hc⟩
      rw [nextSequence, if_neg fun h => hc (List.contains_iff_mem.1 h)]
      simp

/-- Consecutive numbers, fewer than there are, are distinct; so no more of them lie in a list than it is long. -/
theorem run_length_le {used : List Word} {c : Word} {k : Nat} (hk : k ≤ 65536) (h : ∀ j, j < k → c + BitVec.ofNat 16 j ∈ used) :
    k ≤ used.length := by
  have hinj : Set.InjOn (fun j => c + BitVec.ofNat 16 j) (Finset.range k : Set Nat) := by
    intro i hi j hj heq
    simp only [Finset.coe_range, Set.mem_Iio] at hi hj
    have hword : BitVec.ofNat 16 i = BitVec.ofNat 16 j := add_left_cancel heq
    have hnat := congrArg BitVec.toNat hword
    simp only [BitVec.toNat_ofNat] at hnat
    omega
  calc k = (Finset.range k).card := (Finset.card_range k).symm
    _ ≤ used.toFinset.card := Finset.card_le_card_of_injOn _ (fun j hj => List.mem_toFinset.2 (h j (Finset.mem_range.1 hj))) hinj
    _ ≤ used.length := List.toFinset_card_le used

/-- With more tries than used numbers the search ends at a number not used. -/
theorem nextSequence_free {used : List Word} {tries : Nat} (hmore : used.length < tries) (hfew : tries ≤ 65536) (c : Word) :
    ∃ k, nextSequence used tries c = c + BitVec.ofNat 16 k ∧ nextSequence used tries c ∉ used ∧
      ∀ j, j < k → c + BitVec.ofNat 16 j ∈ used := by
  obtain ⟨k, hk, hnext, hused, hfree⟩ := nextSequence_skips used tries c
  have hlt : k < tries := (run_length_le (hk.trans hfew) hused).trans_lt hmore
  exact ⟨k, hnext, hnext ▸ hfree hlt, hused⟩

/-- The counter after an entry is made: by 1, and on past the numbers of the entries, the new one's among them. -/
theorem HoldView.enter_counter {v : HoldView} (h : v.table.entries.length ≤ Config.holdEntries) (p : Port) (start : Nat)
    (data : List Word) (window : Nat) (c : Condition) (now : Uptime) :
    let w := v.enter p start data window c now
    ∃ k, w.table.counter = v.table.counter + 1 + BitVec.ofNat 16 k ∧ w.table.counter ∉ w.table.entries.map (·.sequence) ∧
      ∀ j, j < k → v.table.counter + 1 + BitVec.ofNat 16 j ∈ w.table.entries.map (·.sequence) := by
  intro w
  have hlen : w.table.entries.length = v.table.entries.length + 1 := HoldView.enter_length ..
  have hentries : Config.holdEntries = 24 := rfl
  exact nextSequence_free (used := w.table.entries.map (·.sequence)) (tries := w.table.entries.length + 1)
    (by rw [List.length_map]; omega) (by omega) (v.table.counter + 1)

/-- `State.sequenceLaw` of a view. -/
def HoldView.numbered (v : HoldView) : Prop :=
  v.table.entries.length ≤ Config.holdEntries ∧ (v.table.entries.map (·.sequence)).Nodup ∧
    v.table.counter ∉ v.table.entries.map (·.sequence)

theorem State.sequenceLaw_iff_numbered (s : State) : s.sequenceLaw ↔ s.sup.holdView.numbered := Iff.rfl

theorem HoldView.numbered.keep {v : HoldView} (h : v.numbered) (test : HoldEntry → Bool) : (v.keep test).numbered :=
  ⟨(v.keep_length_le test).trans h.1, h.2.1.sublist (List.filter_sublist.map _), fun hc => h.2.2 ((List.filter_sublist.map _).subset hc)⟩

/-- An entry made where the table has room takes a number that no entry has, and leaves the counter at another. -/
theorem HoldView.numbered.enter {v : HoldView} (h : v.numbered) (hroom : v.table.entries.length < Config.holdEntries) (p : Port)
    (start : Nat) (data : List Word) (window : Nat) (c : Condition) (now : Uptime) : (v.enter p start data window c now).numbered := by
  obtain ⟨hlen, hdistinct, hcounter⟩ := h
  refine ⟨(HoldView.enter_length ..).trans_le hroom, ?_, ?_⟩
  · show ((v.table.entries ++ [_]).map HoldEntry.sequence).Nodup
    rw [List.map_append, List.map_singleton, List.nodup_append]
    refine ⟨hdistinct, List.nodup_singleton _, fun q hq r hr heq => hcounter ?_⟩
    rwa [heq, List.mem_singleton.1 hr] at hq
  · obtain ⟨_, _, hfree, _⟩ := HoldView.enter_counter hlen p start data window c now
    exact hfree

theorem HoldMove.keeps_numbered {v w : HoldView} (move : HoldMove v w) (h : v.numbered) : w.numbered := by
  cases move with
  | leave test => exact h.keep test
  | overtake => exact h
  | hold p start data window c now entries => exact (h.keep _).enter entries p start data window c now
  | holdAgain e window c now held =>
    exact (h.keep _).enter ((HoldView.without_length_lt held).trans_le h.1) e.port e.start e.data window c now
  | forward => exact h.keep _
  | begin => exact h
  | finish => exact h
  | reset => exact ⟨Nat.zero_le _, List.nodup_nil, List.not_mem_nil⟩

end Sys2Proof.Machine
end

section
/-! PROOF. What leaves the held writes alone: read off the views of Laws/Frames.lean and Laws/FramesBlocks.lean where an operation has
one, and shown for the operations of the schedule, of start-up and of the reload that have none. -/

namespace Sys2Proof.Machine

/-! ### From a view to the held writes -/

theorem Sup.holdView_of_told {s t : Sup} (h : s.beyondTold = t.beyondTold) : s.holdView = t.holdView := (congrArg Sup.holdView h :)

theorem Sup.holdView_of_control {s t : Sup} (h : s.beyondControl = t.beyondControl) : s.holdView = t.holdView :=
  (congrArg Sup.holdView h :)

theorem Sup.holdView_of_notices {s t : Sup} (h : s.beyondNotices = t.beyondNotices) : s.holdView = t.holdView :=
  (congrArg Sup.holdView h :)

theorem Sup.holdView_of_lamps {s t : Sup} (h : s.beyondLamps = t.beyondLamps) : s.holdView = t.holdView := (congrArg Sup.holdView h :)

theorem Sup.holdView_of_demand {s t : Sup} (h : s.beyondDemand = t.beyondDemand) : s.holdView = t.holdView := (congrArg Sup.holdView h :)

theorem Sup.holdView_of_picture {s t : Sup} (h : s.beyondPicture = t.beyondPicture) : s.holdView = t.holdView :=
  (congrArg Sup.holdView h :)

theorem Sup.holdView_of_claims {s t : Sup} (h : s.beyondClaims = t.beyondClaims) : s.holdView = t.holdView := (congrArg Sup.holdView h :)

theorem Sup.holdView_of_geometry {s t : Sup} (h : s.beyondGeometry = t.beyondGeometry) : s.holdView = t.holdView :=
  (congrArg Sup.holdView h :)

theorem Sup.holdView_of_ports {s t : Sup} (h : s.beyondPorts = t.beyondPorts) : s.holdView = t.holdView := (congrArg Sup.holdView h :)

/-! ### Small updates and what is told -/

section Frames

variable (s : Sup)

@[simp] theorem Sup.useTicket_holdView : s.useTicket.holdView = s.holdView := rfl

@[simp] theorem Sup.reach_holdView (n : Nat) : (s.reach n).holdView = s.holdView := rfl

@[simp] theorem Sup.setPort_holdView (p : Port) (c : PortCtl) : (s.setPort p c).holdView = s.holdView := rfl

@[simp] theorem Sup.setCell_holdView (l : Lamp) (c : LampCell) : (s.setCell l c).holdView = s.holdView := rfl

@[simp] theorem Sup.setWear_holdView (l : Lamp) (c : WearCell) : (s.setWear l c).holdView = s.holdView := rfl

@[simp] theorem Sup.askRead_holdView (r : Reader) (a n : Nat) : (s.askRead r a n).holdView = s.holdView := rfl

@[simp] theorem Sup.dropReads_holdView (r : Reader) : (s.dropReads r).holdView = s.holdView := rfl

@[simp] theorem Sup.restartArbiter_holdView : s.restartArbiter.holdView = s.holdView := rfl

@[simp] theorem Sup.queueControl_holdView (a : Nat) (v : Word) : (s.queueControl a v).holdView = s.holdView := rfl

@[simp] theorem Sup.queueMirror_holdView (c : WindowClass) (o : Nat) (v : Word) : (s.queueMirror c o v).holdView = s.holdView :=
  Sup.holdView_of_control (s.queueMirror_control c o v)

@[simp] theorem Sup.queueStatus_holdView (o : Nat) : (s.queueStatus o).holdView = s.holdView :=
  Sup.holdView_of_control (s.queueStatus_control o)

@[simp] theorem Sup.queueStatuses_holdView (os : List Nat) : (s.queueStatuses os).holdView = s.holdView :=
  Sup.holdView_of_control (Sup.queueStatuses_control os s)

@[simp] theorem Sup.queueTrim_holdView (os : List Nat) : (s.queueTrim os).holdView = s.holdView :=
  Sup.holdView_of_control (Sup.queueTrim_control os s)

@[simp] theorem Sup.raise_holdView (c : Cause) : (s.raise c).holdView = s.holdView := Sup.holdView_of_told (s.raise_told c)

@[simp] theorem Sup.setAttention_holdView (a : AttentionSet) : (s.setAttention a).holdView = s.holdView :=
  Sup.holdView_of_told (s.setAttention_told a)

@[simp] theorem Sup.judgeRing_holdView : s.judgeRing.holdView = s.holdView := Sup.holdView_of_told s.judgeRing_told

@[simp] theorem Sup.setOverflow_holdView : s.setOverflow.holdView = s.holdView := Sup.holdView_of_told s.setOverflow_told

@[simp] theorem Sup.report_holdView (k : ReportKind) (n : Nat) (d : Word) : (s.report k n d).holdView = s.holdView :=
  Sup.holdView_of_told (s.report_told k n d)

@[simp] theorem Sup.reportPlain_holdView (k : ReportKind) (n : Nat) : (s.reportPlain k n).holdView = s.holdView :=
  Sup.holdView_of_told (s.reportPlain_told k n)

@[simp] theorem Sup.charterReport_holdView (k : ReportKind) (n : Nat) : (s.charterReport k n).holdView = s.holdView :=
  s.report_holdView _ _ _

@[simp] theorem Sup.noteHold_holdView (t : Sup) : (s.noteHold t).holdView = t.holdView := Sup.holdView_of_told (noteHold_told s t)

/-! ### Notices, lamps, demand -/

@[simp] theorem Sup.raiseNotice_holdView (k : NoticeKind) : (s.raiseNotice k).holdView = s.holdView :=
  Sup.holdView_of_notices (s.raiseNotice_notices k)

@[simp] theorem Sup.endNotice_holdView (k : NoticeKind) : (s.endNotice k).holdView = s.holdView :=
  Sup.holdView_of_notices (s.endNotice_notices k)

@[simp] theorem Sup.settleNotices_holdView : s.settleNotices.holdView = s.holdView := Sup.holdView_of_notices s.settleNotices_notices

@[simp] theorem Sup.expireNotice_holdView (k : NoticeKind) : (s.expireNotice k).holdView = s.holdView :=
  (congrArg Sup.holdView (s.expireNotice_notices k) :)

@[simp] theorem Sup.announceNotices_holdView (old new : LockLevel) : (s.announceNotices old new).holdView = s.holdView :=
  Sup.holdView_of_notices (s.announceNotices_notices old new)

@[simp] theorem Sup.setCommand_holdView (l : Lamp) (v : LightLevel) : (s.setCommand l v).holdView = s.holdView :=
  Sup.holdView_of_lamps (s.setCommand_lamps l v)

@[simp] theorem Sup.flush_holdView (l : Lamp) : (s.flush l).holdView = s.holdView := Sup.holdView_of_lamps (s.flush_lamps l)

@[simp] theorem Sup.rewriteShutdown_holdView : s.rewriteShutdown.holdView = s.holdView := Sup.holdView_of_lamps s.rewriteShutdown_lamps

@[simp] theorem Sup.setLampState_holdView (l : Lamp) (st : LampState) : (s.setLampState l st).holdView = s.holdView :=
  Sup.holdView_of_lamps (s.setLampState_lamps l st)

@[simp] theorem Sup.judgeNoLamp_holdView : s.judgeNoLamp.holdView = s.holdView := Sup.holdView_of_lamps s.judgeNoLamp_lamps

@[simp] theorem Sup.strikeDecision_holdView : s.strikeDecision.holdView = s.holdView := Sup.holdView_of_lamps s.strikeDecision_lamps

@[simp] theorem Sup.judgeStage_holdView (l : Lamp) : (s.judgeStage Sup.strikeDecision l).holdView = s.holdView :=
  Sup.holdView_of_lamps (s.judgeStage_lamps Sup.strikeDecision_lamps l)

@[simp] theorem Sup.takeDown_holdView (l : Lamp) (st : LampState) : (s.takeDown l st).holdView = s.holdView :=
  Sup.holdView_of_lamps (s.takeDown_lamps l st)

@[simp] theorem Sup.strikeTimedOut_holdView (l : Lamp) : (s.strikeTimedOut l).holdView = s.holdView :=
  Sup.holdView_of_lamps (s.strikeTimedOut_lamps l)

@[simp] theorem Sup.lampokUp_holdView (l : Lamp) : (s.lampokUp l).holdView = s.holdView :=
  (Sup.holdView_of_lamps (s.lampokUp_lamps l)).trans rfl

@[simp] theorem Sup.lampokDown_holdView (l : Lamp) : (s.lampokDown l).holdView = s.holdView :=
  (Sup.holdView_of_lamps (s.lampokDown_lamps l)).trans rfl

@[simp] theorem Sup.cooledDown_holdView (l : Lamp) : (s.cooledDown l).holdView = s.holdView :=
  Sup.holdView_of_lamps (s.cooledDown_lamps l)

@[simp] theorem Sup.clearLamp_holdView (l : Lamp) : (s.clearLamp l).holdView = s.holdView := Sup.holdView_of_lamps (s.clearLamp_lamps l)

@[simp] theorem Sup.replaceLamp_holdView (l : Lamp) (w : Word) : (s.replaceLamp l w).holdView = s.holdView :=
  Sup.holdView_of_lamps (s.replaceLamp_lamps l w)

@[simp] theorem Sup.accrueBoth_holdView : s.accrueBoth.holdView = s.holdView := Sup.holdView_of_lamps s.accrueBoth_lamps

@[simp] theorem Sup.setDemand_holdView (v : LightLevel) : (s.setDemand v).holdView = s.holdView :=
  Sup.holdView_of_demand (s.setDemand_beyond v)

@[simp] theorem Sup.setIfOff_holdView (v : LightLevel) : (s.setIfOff v).holdView = s.holdView :=
  Sup.holdView_of_demand (s.setIfOff_beyond v)

@[simp] theorem Sup.clearIfUnchanged_holdView (t : Uptime) : (s.clearIfUnchanged t).holdView = s.holdView :=
  Sup.holdView_of_demand (s.clearIfUnchanged_beyond t)

/-! ### Picture and geometry -/

@[simp] theorem Sup.setLiveMute_holdView (v : Mute) : (s.setLiveMute v).holdView = s.holdView :=
  Sup.holdView_of_picture (s.setLiveMute_picture v)

@[simp] theorem Sup.setSeqState_holdView (st : SeqState) : (s.setSeqState st).holdView = s.holdView :=
  Sup.holdView_of_picture (s.setSeqState_picture st)

@[simp] theorem Sup.recheckTarget_holdView : s.recheckTarget.holdView = s.holdView := Sup.holdView_of_picture s.recheckTarget_picture

@[simp] theorem Sup.tickSequencer_holdView : s.tickSequencer.holdView = s.holdView := Sup.holdView_of_picture s.tickSequencer_picture

@[simp] theorem Sup.judgeNoSignal_holdView : s.judgeNoSignal.holdView = s.holdView := Sup.holdView_of_picture s.judgeNoSignal_picture

@[simp] theorem Sup.handClass_holdView (w : Option Claimant) : (s.handClass w).holdView = s.holdView :=
  Sup.holdView_of_picture (s.handClass_picture w)

@[simp] theorem Sup.resolve_holdView : s.resolve.holdView = s.holdView := Sup.holdView_of_picture s.resolve_picture

@[simp] theorem Sup.setClaim_holdView (c : Claimant) (w : ClaimWord) : (s.setClaim c w).holdView = s.holdView :=
  Sup.holdView_of_claims (s.setClaim_beyond c w)

@[simp] theorem Sup.setRequestedMute_holdView (v : Mute) : (s.setRequestedMute v).holdView = s.holdView :=
  (Sup.holdView_of_picture (s.setRequestedMute_picture v)).trans rfl

@[simp] theorem Sup.signalSettled_holdView (i : Fin 8) : (s.signalSettled i).holdView = s.holdView :=
  (congrArg Sup.holdView (s.signalSettled_time i) :)

@[simp] theorem Sup.signalLine_holdView (i : Fin 8) (v : Bool) : (s.signalLine i v).holdView = s.holdView := by
  unfold Sup.signalLine
  dsimp only
  split
  · rfl
  · split <;> rfl

@[simp] theorem Sup.setLive_holdView (c : Corners) : (s.setLive c).holdView = s.holdView := Sup.holdView_of_geometry (s.setLive_geometry c)

@[simp] theorem Sup.judgeSlew_holdView : s.judgeSlew.holdView = s.holdView := rfl

@[simp] theorem Sup.retarget_holdView : s.retarget.holdView = s.holdView := rfl

@[simp] theorem Sup.setTrim_holdView (t : Corners) : (s.setTrim t).holdView = s.holdView :=
  Sup.holdView_of_geometry (s.setTrim_geometry t)

@[simp] theorem Sup.takePreset_holdView (n : Nat) : (s.takePreset n).holdView = s.holdView :=
  Sup.holdView_of_geometry (s.takePreset_geometry n)

@[simp] theorem Sup.tickGeometry_holdView (m : Mute) : (s.tickGeometry m).holdView = s.holdView :=
  Sup.holdView_of_geometry (s.tickGeometry_geometry m)

@[simp] theorem Sup.frameTick_holdView : s.frameTick.holdView = s.holdView := by
  simp only [Sup.frameTick, Sup.tickSequencerFirst, Sup.tickGeometryFirst, apply_ite Sup.holdView, Sup.tickGeometry_holdView,
    Sup.tickSequencer_holdView, Sup.useTicket_holdView, ite_self]

@[simp] theorem Sup.substituteTick_holdView : s.substituteTick.holdView = s.holdView := Sup.frameTick_holdView _

@[simp] theorem Sup.reloadGeometry_holdView : s.reloadGeometry.holdView = s.holdView := by
  simp only [Sup.reloadGeometry, apply_ite Sup.holdView, Sup.judgeSlew_holdView, Sup.setLive_holdView, Sup.retarget_holdView,
    Sup.setTrim_holdView, ite_self]

/-! ### Port controllers, merges, the ring -/

@[simp] theorem Sup.setFaults_holdView (p : Port) (n : Nat) : (s.setFaults p n).holdView = s.holdView :=
  Sup.holdView_of_ports (s.setFaults_ports p n)

@[simp] theorem Sup.respond_holdView (p : Port) (r : Response) : (s.respond p r).holdView = s.holdView :=
  Sup.holdView_of_ports (s.respond_ports p r)

@[simp] theorem Sup.countedWait_holdView (p : Port) : (s.countedWait p).holdView = s.holdView :=
  Sup.holdView_of_ports (s.countedWait_ports p)

@[simp] theorem Sup.releasePort_holdView (p : Port) : (s.releasePort p).holdView = s.holdView :=
  Sup.holdView_of_ports (s.releasePort_ports p)

@[simp] theorem Sup.await_holdView (p : Port) (r : Request) : (s.await p r).holdView = s.holdView := rfl

@[simp] theorem Sup.takeRead_holdView (p : Port) (a n : Nat) : (s.takeRead p a n).holdView = s.holdView := by
  unfold Sup.takeRead
  split <;> simp

@[simp] theorem Sup.writeHeader_holdView (p : Port) (a n : Nat) : (s.writeHeader p a n).holdView = s.holdView := by
  unfold Sup.writeHeader
  split <;> simp

@[simp] theorem Sup.readHeader_holdView (p : Port) (a n : Nat) : (s.readHeader p a n).holdView = s.holdView := by
  unfold Sup.readHeader Sup.passAdmission
  split
  · dsimp only
    split
    · simp
    · split <;> simp
  · rfl

@[simp] theorem Sup.clearShown_holdView (w : Word) : (s.clearShown w).holdView = s.holdView := s.setAttention_holdView _

@[simp] theorem Sup.readDone_holdView (p : Port) (a : Nat) (att : Option Nat) (rs : List ReadWord) :
    (s.readDone p a att rs).holdView = s.holdView := by
  unfold Sup.readDone
  split
  · simp
  · dsimp only
    split <;> simp

@[simp] theorem Sup.takeTail_holdView (t : Nat) : (s.takeTail t).holdView = s.holdView := by simp [Sup.takeTail]

@[simp] theorem Sup.recordWritten_holdView (r : Report) : (s.recordWritten r).holdView = s.holdView := by simp [Sup.recordWritten]

@[simp] theorem Sup.mergeRetained_holdView (a : Nat) : (s.mergeRetained a).holdView = s.holdView := by
  unfold Sup.mergeRetained
  split <;> simp

end Frames

@[simp] theorem Sup.mergeRetainedRun_holdView (n : Nat) (s : Sup) (a : Nat) : (s.mergeRetainedRun a n).holdView = s.holdView := by
  induction n generalizing s a with
  | zero => rfl
  | succ n ih => exact (ih _ _).trans (s.mergeRetained_holdView a)

section Frames

variable (s : Sup)

@[simp] theorem Sup.mergeWrite_holdView (a : Nat) (bs : List Word) : (s.mergeWrite a bs).holdView = s.holdView := by
  unfold Sup.mergeWrite
  split
  · simp
  · dsimp only
    split <;> simp

/-! ### The schedule -/

@[simp] theorem Sup.keyLine_holdView (v : Bool) : (s.keyLine v).holdView = s.holdView := by
  unfold Sup.keyLine
  split <;> simp

@[simp] theorem Sup.warn_holdView : s.warn.holdView = s.holdView := by simp [Sup.warn]

@[simp] theorem Sup.unwarn_holdView : s.unwarn.holdView = s.holdView := by simp [Sup.unwarn]

@[simp] theorem Sup.lightUp_holdView (e : SlotEntry) : (s.lightUp e).holdView = s.holdView := by
  unfold Sup.lightUp
  split <;> simp

@[simp] theorem Sup.prewarm_holdView (e : SlotEntry) : (s.prewarm e).holdView = s.holdView := s.lightUp_holdView e

@[simp] theorem Sup.startSlot_holdView (i : Nat) (e : SlotEntry) (how : Entered) : (s.startSlot i e how).holdView = s.holdView := by
  simp [Sup.startSlot, apply_ite Sup.holdView]

@[simp] theorem Sup.startGrace_holdView : s.startGrace.holdView = s.holdView := rfl

@[simp] theorem Sup.endSlot_holdView (i : Nat) (why : Ended) (g : Bool) : (s.endSlot i why g).holdView = s.holdView := by
  unfold Sup.endSlot
  dsimp only
  split <;> simp [apply_ite Sup.holdView]

@[simp] theorem Sup.noteSlot_holdView (old : Option Nat) : (s.noteSlot old).holdView = s.holdView := by
  unfold Sup.noteSlot
  split <;> simp

@[simp] theorem Sup.boundaryEnd_holdView (m : Nat) : (s.boundaryEnd m).holdView = s.holdView := by
  unfold Sup.boundaryEnd
  split
  · split <;> simp
  · rfl

@[simp] theorem Sup.startIndex_holdView (i : Nat) (how : Entered) : (s.startIndex i how).holdView = s.holdView := by
  unfold Sup.startIndex
  split <;> simp

@[simp] theorem Sup.boundaryStart_holdView (m : Nat) : (s.boundaryStart m).holdView = s.holdView := by
  unfold Sup.boundaryStart
  split
  · exact s.startIndex_holdView _ _
  · rfl

@[simp] theorem Sup.boundaryPrewarm_holdView (m : Nat) : (s.boundaryPrewarm m).holdView = s.holdView := by
  unfold Sup.boundaryPrewarm
  split
  · split <;> simp
  · rfl

@[simp] theorem Sup.boundaryWarn_holdView (m : Nat) : (s.boundaryWarn m).holdView = s.holdView := by
  unfold Sup.boundaryWarn
  split
  · split
    · split <;> simp
    · rfl
  · rfl

@[simp] theorem Sup.followWarning_holdView (e : SlotEntry) (m : Nat) : (s.followWarning e m).holdView = s.holdView := by
  unfold Sup.followWarning
  split <;> split <;> simp

@[simp] theorem Sup.leaveSlot_holdView (why : Ended) (g : Bool) : (s.leaveSlot why g).holdView = s.holdView := by
  unfold Sup.leaveSlot
  split <;> simp

@[simp] theorem Sup.setScheduleState_holdView (v : ScheduleState) : (s.setScheduleState v).holdView = s.holdView := by
  unfold Sup.setScheduleState
  split <;> simp

@[simp] theorem Sup.setHeader_holdView (n : Nat) (b : Bool) : (s.setHeader n b).holdView = s.holdView := by
  unfold Sup.setHeader
  split <;> simp

@[simp] theorem Sup.failLoad_holdView (i : Nat) (f : LoadFault) : (s.failLoad i f).holdView = s.holdView := by simp [Sup.failLoad]

@[simp] theorem Sup.succeedLoad_holdView (es : List SlotEntry) : (s.succeedLoad es).holdView = s.holdView := by simp [Sup.succeedLoad]

@[simp] theorem Sup.beginLoad_holdView : s.beginLoad.holdView = s.holdView := by
  unfold Sup.beginLoad
  dsimp only
  split <;> simp

@[simp] theorem Sup.startUpSlot_holdView : s.startUpSlot.holdView = s.holdView := by
  unfold Sup.startUpSlot
  split <;> simp

@[simp] theorem Sup.expireGrace_holdView : s.expireGrace.holdView = s.holdView := by
  unfold Sup.expireGrace
  split
  · split <;> simp
  · rfl

/-! ### Start-up -/

@[simp] theorem Sup.loadCharter_holdView (rs : List ReadWord) : (s.loadCharter rs).holdView = s.holdView := by
  unfold Sup.loadCharter
  split
  · dsimp only
    split <;> simp
  · simp

@[simp] theorem Sup.askRecords_holdView : s.askRecords.holdView = s.holdView := by
  unfold Sup.askRecords
  dsimp only
  split <;> simp

@[simp] theorem Sup.charterLoaded_holdView (m : Memory) : (s.charterLoaded m).holdView = s.holdView := by
  unfold Sup.charterLoaded
  split <;> simp

@[simp] theorem Sup.takeShutdown_holdView (rs : List ReadWord) : (s.takeShutdown rs).holdView = s.holdView := by
  unfold Sup.takeShutdown
  split <;> simp

theorem Sup.adoptInvalid_holdView (l : Lamp) (d : Nat) : (s.adoptInvalid l d).holdView = s.holdView := by
  unfold Sup.adoptInvalid
  dsimp only
  split <;> simp

theorem Sup.adoptValid_holdView (l : Lamp) (v : LightLevel) : (s.adoptValid l v).holdView = s.holdView := by
  unfold Sup.adoptValid
  split
  · simp
  · split <;> simp

@[simp] theorem Sup.adopt_holdView (l : Lamp) (r : Except Nat WearCell) (v : LightLevel) : (s.adopt l r v).holdView = s.holdView := by
  cases r with
  | ok c => exact ((s.setWear l c).adoptValid_holdView l v).trans rfl
  | error d => exact s.adoptInvalid_holdView l d

@[simp] theorem Sup.adoptLamps_holdView (rs : List ReadWord) : (s.adoptLamps rs).holdView = s.holdView := by
  simp [Sup.adoptLamps, apply_ite Sup.holdView]

@[simp] theorem Sup.askMirrors_holdView : s.askMirrors.holdView = s.holdView := by
  unfold Sup.askMirrors
  dsimp only
  split <;> simp

@[simp] theorem Sup.recordsRead_holdView (m : Memory) : (s.recordsRead m).holdView = s.holdView := by
  unfold Sup.recordsRead
  split <;> simp

@[simp] theorem Sup.agreeWithDemand_holdView (l : Lamp) : (s.agreeWithDemand l).holdView = s.holdView := by
  simp [Sup.agreeWithDemand, apply_ite Sup.holdView]

@[simp] theorem Sup.rebuildDemandLine_holdView (r : ReadWord) : (s.rebuildDemandLine r).holdView = s.holdView := by
  simp [Sup.rebuildDemandLine, Sup.rebuildDemand, apply_ite Sup.holdView]

@[simp] theorem Sup.rebuildDemandPower_holdView : s.rebuildDemandPower.holdView = s.holdView := by simp [Sup.rebuildDemandPower]

@[simp] theorem Sup.rebuildClaim_holdView (c : Claimant) (r : Option ClaimWord) : (s.rebuildClaim c r).holdView = s.holdView := by
  simp [Sup.rebuildClaim, apply_ite Sup.holdView]

@[simp] theorem Sup.resumeSequencer_holdView : s.resumeSequencer.holdView = s.holdView := by
  unfold Sup.resumeSequencer
  split
  · split <;> simp
  · simp

@[simp] theorem Sup.resolveRebuilt_holdView : s.resolveRebuilt.holdView = s.holdView := by simp [Sup.resolveRebuilt]

@[simp] theorem Sup.rebuildSourceLine_holdView (r : Mirrors) : (s.rebuildSourceLine r).holdView = s.holdView := by
  simp [Sup.rebuildSourceLine, apply_ite Sup.holdView]

@[simp] theorem Sup.rebuildSourcePower_holdView : s.rebuildSourcePower.holdView = s.holdView := by simp [Sup.rebuildSourcePower]

@[simp] theorem Sup.rebuildGeometryPower_holdView : s.rebuildGeometryPower.holdView = s.holdView := by simp [Sup.rebuildGeometryPower]

@[simp] theorem Sup.rebuildGeometryLine_holdView (r : Mirrors) : (s.rebuildGeometryLine r).holdView = s.holdView := by
  simp [Sup.rebuildGeometryLine, apply_ite Sup.holdView]

@[simp] theorem Sup.rebuilt_holdView (m : Memory) : (s.rebuilt m).holdView = s.holdView := by
  unfold Sup.rebuilt
  split
  · dsimp only
    split <;> simp [Sup.rebuildPower, Sup.rebuildLine]
  · rfl

@[simp] theorem Sup.endStartUp_holdView : s.endStartUp.holdView = s.holdView := by simp [Sup.endStartUp]

@[simp] theorem Sup.badHeader_holdView (f : LoadFault) : (s.badHeader f).holdView = s.holdView := by simp [Sup.badHeader]

/-! ### Reload and power-fail warning -/

@[simp] theorem Sup.moveMirrors_holdView (old : List Window) : (s.moveMirrors old).holdView = s.holdView := by
  simp [Sup.moveMirrors, apply_ite Sup.holdView]

/-- A lost record is no release item. -/
@[simp] theorem wordsInAccess_loseRecord (a : Option Access) : wordsInAccess (loseRecord a) = wordsInAccess a := by
  unfold loseRecord
  split <;> rfl

@[simp] theorem Sup.restartRing_holdView (old : RingParams) : (s.restartRing old).holdView = s.holdView := by
  unfold Sup.restartRing
  split <;> simp

@[simp] theorem Sup.reloadBlocks_holdView (old : LampParams) : (s.reloadBlocks old).holdView = s.holdView := by
  simp [Sup.reloadBlocks, apply_ite Sup.holdView]

@[simp] theorem Sup.powerFails_holdView : s.powerFails.holdView = s.holdView := by
  unfold Sup.powerFails
  split
  · rfl
  · dsimp only
    split <;> simp

end Frames

end Sys2Proof.Machine
end

section
/-! PROOF. Every operation of the supervisor, and so every command and every step, changes the held writes by moves alone; and so it
keeps the limits of the hold table and the sequence numbers distinct. -/

namespace Sys2Proof.Machine

/-- An operation changes the held writes by moves alone. -/
def MovesOnly (f : Sup → Sup) : Prop := ∀ s : Sup, HoldMoves s.holdView (f s).holdView

/-- What leaves the held writes alone takes no move. -/
theorem HoldMoves.of_eq {v w : HoldView} (h : w = v) : HoldMoves v w := h ▸ HoldMoves.refl v

theorem MovesOnly.of_frame {f : Sup → Sup} (h : ∀ s, (f s).holdView = s.holdView) : MovesOnly f := fun s => .of_eq (h s)

/-- An operation that follows what leaves the held writes alone. -/
theorem MovesOnly.after {f : Sup → Sup} (hf : MovesOnly f) {s : Sup} {v : HoldView} (h : s.holdView = v) : HoldMoves v (f s).holdView :=
  h ▸ hf s

theorem foldl_moves {α : Type} {f : Sup → α → Sup} (h : ∀ a, MovesOnly fun s => f s a) (l : List α) : MovesOnly fun s => l.foldl f s := by
  induction l with
  | nil => exact fun s => .refl _
  | cons a l ih => exact fun s => (h a s).trans (ih (f s a))

theorem foldl_holdView {α : Type} {f : Sup → α → Sup} (h : ∀ s a, (f s a).holdView = s.holdView) (l : List α) (s : Sup) :
    (l.foldl f s).holdView = s.holdView := by
  induction l generalizing s with
  | nil => rfl
  | cons a l ih => exact (ih _).trans (h s a)

/-! ### The hold table -/

theorem Sup.removeEntry_moves (q : Word) : MovesOnly fun s => s.noteHold (s.removeEntry q) := fun s => by
  rw [Sup.noteHold_holdView, Sup.removeEntry_holdView]
  exact (HoldMove.leave _).moves

theorem Sup.supersede_moves (p : Port) (start : Nat) : MovesOnly fun s => s.supersede p start := fun s => by
  dsimp only [Sup.supersede]
  rw [Sup.noteHold_holdView, Sup.dropEntry_holdView]
  exact (HoldMove.leave _).moves

theorem Sup.overtake_moves (p : Port) (start : Nat) : MovesOnly fun s => s.overtake p start := fun s => by
  dsimp only [Sup.overtake]
  rw [Sup.noteHold_holdView]
  exact (HoldMove.overtake _).moves

/-- The room test of R59 is what admits a write. -/
theorem Sup.holdWrite_moves {s : Sup} {p : Port} {start : Nat} {data : List Word} (h : s.hasRoom p start data.length = true)
    (window : Nat) (c : Condition) : HoldMoves s.holdView (s.holdWrite p start data window c).holdView := by
  obtain ⟨entries, words⟩ := Bool.and_eq_true_iff.1 h
  rw [Sup.holdWrite, Sup.noteHold_holdView, Sup.addEntry_holdView, Sup.dropEntry_holdView]
  exact (HoldMove.hold (v := s.holdView) p start data window c _ (of_decide_eq_true entries) (of_decide_eq_true words)).moves

theorem Sup.expireEntry_moves (q : Word) : MovesOnly fun s => s.expireEntry q := fun s => by
  dsimp only [Sup.expireEntry]
  split
  · split
    · rw [Sup.report_holdView]
      exact Sup.removeEntry_moves q s
    · exact .refl _
  · exact .refl _

theorem Sup.tearDown_moves (test : HoldEntry → Bool) : MovesOnly fun s => s.tearDown test := fun s => by
  dsimp only [Sup.tearDown]
  rw [foldl_holdView fun t e => t.report_holdView _ _ _, Sup.noteHold_holdView]
  exact (HoldMove.leave _).moves

theorem Sup.enterQuarantine_moves (p : Port) : MovesOnly fun s => s.enterQuarantine p := fun s => by
  dsimp only [Sup.enterQuarantine]
  rw [Sup.setClaim_holdView]
  exact (Sup.tearDown_moves _).after (by simp)

theorem Sup.beatTimedOut_moves (p : Port) : MovesOnly fun s => s.beatTimedOut p := fun s => by
  dsimp only [Sup.beatTimedOut]
  split
  · unfold Sup.endCollection
    dsimp only
    split
    · exact .of_eq (by simp)
    · exact .of_eq (by simp)
    · split
      · exact (Sup.enterQuarantine_moves p).after (by simp)
      · exact .of_eq (by simp)
  · exact .refl _

/-! ### The lock controller and the schedule, over what a release does -/

section Release

variable {release : Sup → Sup} (hr : MovesOnly release)
include hr

theorem Sup.recompute_moves : MovesOnly fun s => s.recompute release := fun s => by
  dsimp only [Sup.recompute]
  split
  · exact .of_eq (by simp)
  · rw [Sup.announceNotices_holdView, Sup.resolve_holdView]
    exact hr.after (by simp)

theorem Sup.handContribution_moves (v : LockLevel) : MovesOnly fun s => s.handContribution release v := fun s => by
  dsimp only [Sup.handContribution]
  split
  · exact .refl _
  · exact (Sup.recompute_moves hr).after rfl

theorem Sup.keySettled_moves : MovesOnly fun s => s.keySettled release := fun s => by
  dsimp only [Sup.keySettled]
  split
  · exact (Sup.recompute_moves hr).after rfl
  · exact .refl _

theorem Sup.startTakeover_moves : MovesOnly fun s => s.startTakeover release := fun s => by
  dsimp only [Sup.startTakeover]
  split
  · exact .refl _
  · exact (Sup.recompute_moves hr).after rfl

theorem Sup.endTakeover_moves : MovesOnly fun s => s.endTakeover release := fun s => by
  dsimp only [Sup.endTakeover]
  split
  · exact (Sup.recompute_moves hr).after rfl
  · exact .refl _

theorem Sup.takeoverTimedOut_moves : MovesOnly fun s => s.takeoverTimedOut release := fun s => by
  dsimp only [Sup.takeoverTimedOut]
  split
  · exact (Sup.recompute_moves hr).after rfl
  · exact .refl _

theorem Sup.finishSet_moves (old : Option Nat) : MovesOnly fun s => s.finishSet release old := fun s => by
  dsimp only [Sup.finishSet]
  rw [Sup.noteSlot_holdView]
  exact Sup.handContribution_moves hr _ s

theorem Sup.minuteBoundary_moves : MovesOnly fun s => s.minuteBoundary release := fun s => by
  dsimp only [Sup.minuteBoundary]
  split
  · exact (Sup.finishSet_moves hr _).after (by simp)
  · exact .refl _

theorem Sup.judgeTime_moves (how : Entered) : MovesOnly fun s => s.judgeTime release how := fun s => by
  unfold Sup.judgeTime
  beta_reduce
  extract_lets m old new left entered prewarmed
  have hleft : left.holdView = s.holdView := s.leaveSlot_holdView _ _
  clear_value left new
  have hentered : entered.holdView = s.holdView := by
    unfold entered
    split
    · split
      · split <;> simp
      · rfl
    · split <;> simp [hleft]
  have hprewarmed : prewarmed.holdView = s.holdView := by
    unfold prewarmed
    split
    · split <;> simp [hentered]
    · exact hentered
  exact (Sup.finishSet_moves hr old).after hprewarmed

theorem Sup.setClock_moves (p : Port) (t : Nat) : MovesOnly fun s => s.setClock release p t := fun s => by
  unfold Sup.setClock
  beta_reduce
  extract_lets room taken noted ws mirrored reported
  have hnoted : noted.holdView = s.holdView := by
    unfold noted
    split
    · rfl
    · exact Sup.queueStatus_holdView _ _
  have hreported : reported.holdView = s.holdView := by simp [reported, mirrored, hnoted]
  split
  · exact (Sup.judgeTime_moves hr .clockSet).after hreported
  · exact .of_eq hreported

theorem Sup.enableFromTime_moves : MovesOnly fun s => s.enableFromTime release := fun s => by
  dsimp only [Sup.enableFromTime]
  split
  · exact Sup.judgeTime_moves hr _ s
  · exact .refl _

theorem Sup.disableSchedule_moves : MovesOnly fun s => s.disableSchedule release := fun s => by
  dsimp only [Sup.disableSchedule]
  rw [Sup.noteSlot_holdView]
  exact (Sup.handContribution_moves hr _).after (by simp)

theorem Sup.takeHeader_moves (count : Nat) (enable : Bool) : MovesOnly fun s => s.takeHeader release count enable := fun s => by
  dsimp only [Sup.takeHeader]
  split
  · exact .of_eq (by simp)
  · split
    · exact (Sup.enableFromTime_moves hr).after (by simp)
    · exact .of_eq (by simp)
  · rw [Sup.setHeader_holdView]
    exact Sup.disableSchedule_moves hr s
  · exact .refl _

theorem Sup.takeMinute_moves : MovesOnly fun s => s.takeMinute release := fun s =>
  (Sup.minuteBoundary_moves hr).after (by split <;> simp)

theorem Sup.tickSecond_moves : MovesOnly fun s => s.tickSecond release := fun s => by
  unfold Sup.tickSecond
  beta_reduce
  extract_lets t reached time room ticked accrued
  have hticked : ticked.holdView = s.holdView := rfl
  have haccrued : accrued.holdView = s.holdView := by
    unfold accrued
    split <;> simp [hticked]
  rw [Sup.judgeRing_holdView]
  split
  · exact (Sup.takeMinute_moves hr).after haccrued
  · exact .of_eq haccrued

/-- Of the records only those of the clock, the schedule header and the takeover can release a held write. -/
theorem Sup.takeRecord_moves (p : Port) (a : RecordAct) : MovesOnly fun s => s.takeRecord release p a := fun s => by
  cases a with
  | light v => exact .of_eq (s.setDemand_holdView v)
  | claim q w => exact .of_eq (s.setClaim_holdView _ w)
  | mute v => exact .of_eq (s.setRequestedMute_holdView v)
  | trim t => exact .of_eq (s.setTrim_holdView t)
  | clock t => exact Sup.setClock_moves hr p t s
  | header count enable => exact Sup.takeHeader_moves hr count enable s
  | portRelease q => exact .of_eq (s.releasePort_holdView q)
  | takeoverStart => exact Sup.startTakeover_moves hr s
  | takeoverEnd => exact Sup.endTakeover_moves hr s
  | lampClear l => exact .of_eq (s.clearLamp_holdView l)
  | lampReplace l tag => exact .of_eq (s.replaceLamp_holdView l tag)
  | charterReload => exact .refl _

/-! ### Release -/

/-- The release of an entry: it leaves, goes to the release queue, or is held again (R65). -/
theorem Sup.releaseEntry_moves (n : Nat) : MovesOnly fun s => s.releaseEntry release n := fun s => by
  cases hmade : s.entryMade n with
  | none =>
    dsimp only [Sup.releaseEntry]
    rw [hmade]
    exact .refl _
  | some e =>
    have held : e ∈ s.holdView.table.entries := List.mem_of_find?_eq_some hmade
    dsimp only
    cases hcourse : s.classify e.port e.start e.data with
    | denied r =>
      rw [Sup.releaseEntry_denied release hmade hcourse, Sup.report_holdView]
      exact Sup.removeEntry_moves _ s
    | offered c w =>
      rw [Sup.releaseEntry_offered release hmade hcourse, Sup.noteHold_holdView, Sup.addEntry_holdView, Sup.removeEntry_holdView]
      exact (HoldMove.holdAgain e w c _ held).moves
    | applied course =>
      rw [Sup.releaseEntry_applied release hmade hcourse]
      cases course with
      | forward =>
        rw [Sup.applyReleased, Sup.noteHold_holdView]
        exact (HoldMove.forward e held).moves
      | absorb a => exact (Sup.removeEntry_moves _ s).trans (Sup.takeRecord_moves hr e.port a _)
      | merge =>
        rw [Sup.applyReleased, Sup.mergeWrite_holdView]
        exact Sup.removeEntry_moves _ s

/-- The warm-up's end, over what the announcement of LIT does. -/
theorem Sup.warmedUp_moves (l : Lamp) : MovesOnly fun s => s.warmedUp release l := fun s => by
  dsimp only [Sup.warmedUp]
  rw [Sup.judgeNoLamp_holdView]
  have announced : HoldMoves s.holdView
      (release ((((s.setCell l { s.lamp.lamps.get l with timer := none, attempts := 0 }).setLampState l .lit).report .lit l.code
        (word s.lamp.demand.level.code)))).holdView := hr.after (by simp)
  split
  · exact announced
  · split
    · exact announced.trans (.of_eq (by simp))
    · exact announced.trans (.of_eq (by simp))

end Release

theorem Sup.releaseLock_moves (n : Nat) : MovesOnly (Sup.releaseLock n) := by
  induction n with
  | zero => exact fun s => .refl _
  | succ n ih => exact fun s => foldl_moves (Sup.releaseEntry_moves ih) _ s

theorem Sup.levelRelease_moves : MovesOnly Sup.levelRelease := Sup.releaseLock_moves _

theorem Sup.litRelease_moves : MovesOnly Sup.litRelease := fun s => foldl_moves (Sup.releaseEntry_moves Sup.levelRelease_moves) _ s

/-! ### Traffic -/

theorem Sup.offer_moves (p : Port) (start : Nat) (beats : List Word) (c : Condition) (window : Nat) :
    MovesOnly fun s => s.offer p start beats c window := fun s => by
  dsimp only [Sup.offer]
  split
  · next room =>
    rw [Sup.respond_holdView]
    exact Sup.holdWrite_moves room window c
  · split <;> exact .of_eq (by simp)

theorem Sup.applyWrite_moves (p : Port) (start : Nat) (beats : List Word) (c : Course) :
    MovesOnly fun s => s.applyWrite p start beats c := fun s => by
  have superseded := Sup.supersede_moves p start s
  cases c with
  | forward => exact superseded.trans (Sup.overtake_moves p start _)
  | absorb a =>
    exact (superseded.trans (.of_eq (Sup.respond_holdView _ _ _))).trans (Sup.takeRecord_moves Sup.levelRelease_moves p a _)
  | merge => exact superseded.trans (.of_eq (by simp [Sup.applyWrite]))

theorem Sup.takeWrite_moves (p : Port) (start : Nat) (beats : List Word) : MovesOnly fun s => s.takeWrite p start beats := fun s => by
  dsimp only [Sup.takeWrite]
  split
  · exact .of_eq (by simp)
  · exact Sup.offer_moves p start beats _ _ s
  · exact Sup.applyWrite_moves p start beats _ s

theorem Sup.passAdmission_moves {s t : Sup} (h : HoldMoves s.holdView t.holdView) (p : Port) :
    HoldMoves s.holdView (s.passAdmission p t).holdView := by
  unfold Sup.passAdmission
  split
  · exact .of_eq (by simp)
  · split
    · exact .of_eq (by simp)
    · exact h

theorem Sup.beat_moves (p : Port) (w : Word) : MovesOnly fun s => s.beat p w := fun s => by
  dsimp only [Sup.beat]
  split
  · split
    · exact .refl _
    · exact Sup.passAdmission_moves (s := s.setPort p { s.port p with timer := none }) (Sup.takeWrite_moves p _ _ _) p
  · exact .refl _

theorem Sup.sendWrite_moves (p : Port) (start : Nat) (beats : List Word) : MovesOnly fun s => s.sendWrite p start beats := fun s => by
  dsimp only [Sup.sendWrite]
  split
  · exact Sup.beat_moves p _ s
  · exact (foldl_moves (Sup.beat_moves p) beats).after (by simp)

theorem Sup.sendRecord_moves (p : Port) (c : WindowClass) (offset : Nat) (beats : List Word) :
    MovesOnly fun s => s.sendRecord p c offset beats := fun s => Sup.sendWrite_moves p _ beats s

/-! ### Start-up and reload -/

theorem Sup.endScheduleLoad_moves : MovesOnly Sup.endScheduleLoad := fun s => by
  rw [Sup.endScheduleLoad, Sup.endStartUp_holdView, Sup.queueStatus_holdView]
  exact Sup.handContribution_moves Sup.levelRelease_moves _ s

theorem Sup.headerRead_moves (m : Memory) : MovesOnly fun s => s.headerRead m := fun s => by
  dsimp only [Sup.headerRead]
  split
  · unfold Sup.takeHeaderRead
    split
    · exact (Sup.endScheduleLoad_moves).after (by simp)
    · split
      · exact (Sup.endScheduleLoad_moves).after (by simp)
      · dsimp only
        split
        · exact (Sup.endScheduleLoad_moves).after (by simp)
        · split
          · exact (Sup.endScheduleLoad_moves).after (by simp)
          · exact .of_eq (by simp)
  · exact .refl _

theorem Sup.endLoad_moves (rs : List ReadWord) : MovesOnly fun s => s.endLoad rs := fun s => by
  dsimp only [Sup.endLoad]
  split
  · split
    · exact (Sup.endScheduleLoad_moves).after (by simp)
    · exact (Sup.enableFromTime_moves Sup.levelRelease_moves).after (by simp)
  · split
    · exact (Sup.endScheduleLoad_moves).after (by simp)
    · exact .of_eq (by simp)

theorem Sup.loadDone_moves (m : Memory) : MovesOnly fun s => s.loadDone m := fun s => by
  dsimp only [Sup.loadDone]
  split
  · exact .refl _
  · split
    · exact (Sup.endLoad_moves _).after rfl
    · exact .refl _

theorem Sup.requarantine_moves (p : Port) : MovesOnly fun s => s.requarantine p := fun s => by
  dsimp only [Sup.requarantine]
  split
  · exact Sup.enterQuarantine_moves p s
  · exact .refl _

theorem Sup.reloadPorts_moves (old : PortParams) : MovesOnly fun s => s.reloadPorts old := fun s => by
  have quarantines := foldl_moves Sup.requarantine_moves allPorts s
  dsimp only [Sup.reloadPorts]
  split
  · exact quarantines
  · exact quarantines

/-- A charter put in force tears the whole table down and may quarantine ports (R200). -/
theorem Sup.putInForce_moves (ch : Charter) : MovesOnly fun s => s.putInForce ch := fun s => by
  unfold Sup.putInForce
  beta_reduce
  extract_lets old charted moved restarted low reported
  have hmoved : HoldMoves s.holdView moved.holdView := by
    simp only [moved, Sup.moveMirrors_holdView]
    exact (Sup.tearDown_moves _).after rfl
  have hrestarted : HoldMoves s.holdView restarted.holdView :=
    hmoved.trans ((Sup.reloadPorts_moves old.port).after (Sup.restartRing_holdView _ _))
  exact hrestarted.trans (.of_eq (by simp [reported]))

theorem Sup.reloadRead_moves (m : Memory) : MovesOnly fun s => s.reloadRead m := fun s => by
  dsimp only [Sup.reloadRead]
  split
  · split
    · exact (Sup.putInForce_moves _).after rfl
    · exact .of_eq (by simp)
  · exact .refl _

/-! ### The memory port -/

/-- An access that is no release begins at a free memory port. -/
theorem Sup.begin_holdView {s : Sup} (free : s.mp.access = none) {a : Access} (ha : wordsInAccess (some a) = 0) :
    (s.begin a).holdView = s.holdView := by
  simp only [Sup.begin, Sup.holdView, free, ha]
  rfl

theorem Sup.setOverflow_access (s : Sup) : s.setOverflow.mp.access = s.mp.access :=
  (congrArg (fun u : Sup => u.mp.access) s.setOverflow_told :)

theorem Sup.grantInternal_moves (n : Nat) {s : Sup} (free : s.mp.access = none) :
    HoldMoves s.holdView (Sup.grantInternal n s).holdView := by
  induction n generalizing s with
  | zero => exact .refl _
  | succ n ih =>
    unfold Sup.grantInternal
    split
    · exact .of_eq ((Sup.begin_holdView free rfl).trans rfl)
    · split
      · exact .of_eq (Sup.begin_holdView free rfl)
      · split
        · next item rest front => exact (HoldMove.begin item rest (by simp [Sup.holdView, free, wordsInAccess]) front).moves
        · split
          · split
            · exact .refl _
            · split
              · exact (HoldMoves.of_eq (by simp)).trans (ih ((Sup.setOverflow_access _).trans free))
              · exact .of_eq (Sup.begin_holdView free rfl)
          · exact .refl _

theorem Sup.grantPort_moves {s : Sup} (free : s.mp.access = none) (p : Port) : HoldMoves s.holdView (s.grantPort p).holdView := by
  unfold Sup.grantPort
  split
  · exact .of_eq (Sup.begin_holdView free rfl)
  · exact .refl _

@[simp] theorem Sup.moveFirst_holdView (s : Sup) (m : FirstRing) : (s.moveFirst m).holdView = s.holdView := by
  unfold Sup.moveFirst
  split <;> rfl

@[simp] theorem Sup.moveSecond_holdView (s : Sup) (m : SecondRing) : (s.moveSecond m).holdView = s.holdView := by
  unfold Sup.moveSecond
  split <;> rfl

@[simp] theorem Sup.pastFirst_access (s : Sup) (m : FirstRing) : (s.pastFirst m).access = s.mp.access := by
  unfold Sup.pastFirst
  split <;> rfl

@[simp] theorem Sup.moveSecond_access (s : Sup) (m : SecondRing) : (s.moveSecond m).mp.access = s.mp.access := by
  unfold Sup.moveSecond
  split <;> rfl

theorem Sup.arbitrate_moves {s : Sup} (free : s.mp.access = none) : HoldMoves s.holdView s.arbitrate.holdView := by
  have port : ∀ (u : Sup) (p : Port), u.holdView = s.holdView → u.mp.access = none → HoldMoves s.holdView (u.grantPort p).holdView :=
    fun u p hview hfree => hview ▸ Sup.grantPort_moves hfree p
  unfold Sup.arbitrate
  split
  · exact .refl _
  · exact (HoldMoves.of_eq (by simp)).trans (Sup.grantInternal_moves _ (by simp [free]))
  · exact port _ _ (by simp) (by simp [free])
  · exact port _ _ (by simp) (by simp [free])
  · split
    · exact port _ _ (by simp) (by simp [free])
    · exact port _ _ (by simp) (by simp [free])
    · exact .refl _

theorem Sup.grant_moves : MovesOnly Sup.grant := fun s => by
  unfold Sup.grant
  split
  · exact .refl _
  · next free =>
    have first := Sup.arbitrate_moves (Option.not_isSome_iff_eq_none.1 free)
    dsimp only
    split
    · exact first
    · next still => exact first.trans (Sup.arbitrate_moves (Option.not_isSome_iff_eq_none.1 still))

theorem Sup.accessDone_moves (m : Memory) (a : Access) : MovesOnly fun s => s.accessDone m a := fun s => by
  have ended : HoldMoves s.holdView { s with mp.access := none }.holdView := HoldMove.finish.moves
  cases a with
  | port p r =>
    cases r with
    | read start length attention => exact ended.trans (.of_eq (Sup.readDone_holdView _ _ _ _ _))
    | write start beats => exact ended.trans (.of_eq (Sup.respond_holdView _ _ _))
  | control => exact ended
  | piece => exact ended
  | release => exact ended.trans (.of_eq (Sup.noteHold_holdView _ _))
  | record start r => exact ended.trans (.of_eq (Sup.recordWritten_holdView _ _))
  | lostRecord => exact ended

theorem finishAccess_moves (failing : List Nat) (s : State) : HoldMoves s.sup.holdView (finishAccess failing s).sup.holdView := by
  unfold finishAccess
  split
  · exact Sup.accessDone_moves _ _ _
  · exact .refl _

/-! ### Commands and steps -/

theorem Sup.lampTimer_moves {f : Sup → Sup} (hf : MovesOnly f) (l : Lamp) (st : LampState) : MovesOnly fun s => s.lampTimer l st f :=
  fun s => by
    dsimp only [Sup.lampTimer]
    split
    · split
      · exact hf.after (by simp)
      · exact .refl _
    · exact .refl _

/-- A command changes the held writes by what it does to the supervisor, and by its grant. -/
theorem act_moves {f : Sup → Sup} (hf : MovesOnly f) {s t : State} (h : act f s = .next t) : HoldMoves s.sup.holdView t.sup.holdView := by
  cases h
  exact (hf s.sup).trans (Sup.grant_moves _)

theorem actLength_moves {n : Nat} {f : Sup → Sup} (hf : MovesOnly f) {s t : State} (h : actLength n f s = .next t) :
    HoldMoves s.sup.holdView t.sup.holdView := by
  unfold actLength at h
  split at h
  · exact act_moves hf h
  · cases h

theorem actReset_moves {f : Sup → Sup} (hf : MovesOnly f) {s t : State} (h : actReset f s = .next t) :
    HoldMoves s.sup.holdView t.sup.holdView := by
  cases h
  exact hf s.sup

theorem memoryAccessDone_moves {failing : List Addr} {s t : State} (h : execMemoryAccessDone failing s = .next t) :
    HoldMoves s.sup.holdView t.sup.holdView :=
  ((Sup.grant_moves s.sup).trans (finishAccess_moves _ { s with sup := s.sup.grant })).trans (act_moves (fun _ => .refl _) h)

theorem exec_moves {c : Instr} {s t : State} (h : exec c s = .next t) : HoldMoves s.sup.holdView t.sup.holdView := by
  cases c with
  | powerOnReset => exact actReset_moves (fun _ => HoldMove.reset.moves) h
  | lineReset => exact actReset_moves (fun _ => HoldMove.reset.moves) h
  | charterLoad => exact act_moves (.of_frame fun u => u.charterLoaded_holdView s.mem) h
  | retainedRecordsRead => exact act_moves (.of_frame fun u => u.recordsRead_holdView s.mem) h
  | rebuild => exact act_moves (.of_frame fun u => u.rebuilt_holdView s.mem) h
  | scheduleHeaderRead => exact act_moves (Sup.headerRead_moves s.mem) h
  | scheduleLoadDone => exact act_moves (Sup.loadDone_moves s.mem) h
  | charterReloadReadDone => exact act_moves (Sup.reloadRead_moves s.mem) h
  | beatTimeout p => exact act_moves (Sup.beatTimedOut_moves p) h
  | portRead p start length => exact actLength_moves (.of_frame fun u => u.readHeader_holdView p start.toNat length) h
  | writeHeader p start length => exact actLength_moves (.of_frame fun u => u.writeHeader_holdView p start.toNat length) h
  | writeBeat p w => exact act_moves (Sup.beat_moves p w) h
  | forwardedWrite p start beats => exact actLength_moves (Sup.sendWrite_moves p start.toNat beats) h
  | mergedWrite p start beats => exact actLength_moves (Sup.sendWrite_moves p start.toNat beats) h
  | trimWrite p offset beats => exact actLength_moves (Sup.sendRecord_moves p .geometry offset.val beats) h
  | scheduleEnable p | scheduleDisable p | scheduleHeaderWrite p => exact act_moves (Sup.sendWrite_moves p scheduleBase _) h
  | ringTail p | lightWrite p | claimWrite p | muteWrite p | clockSet p | portRelease p | takeoverStart p | takeoverEnd p | lampClear p
  | lampReplace p | charterReload p => exact act_moves (Sup.sendRecord_moves p _ _ _) h
  | memoryAccessDone failing => exact memoryAccessDone_moves h
  | keyEdge on => exact act_moves (.of_frame fun u => u.keyLine_holdView on) h
  | keyDebounceExpiry => exact act_moves (Sup.keySettled_moves Sup.levelRelease_moves) h
  | takeoverExpiry => exact act_moves (Sup.takeoverTimedOut_moves Sup.levelRelease_moves) h
  | holdExpiry sequence => exact act_moves (Sup.expireEntry_moves sequence) h
  | lampokAssert l => exact act_moves (.of_frame fun u => u.lampokUp_holdView l) h
  | lampokDeassert l => exact act_moves (.of_frame fun u => u.lampokDown_holdView l) h
  | strikeTimeout l => exact act_moves (Sup.lampTimer_moves (.of_frame fun u => u.strikeTimedOut_holdView l) l .striking) h
  | warmupExpiry l => exact act_moves (Sup.lampTimer_moves (Sup.warmedUp_moves Sup.litRelease_moves l) l .warming) h
  | cooldownExpiry l => exact act_moves (Sup.lampTimer_moves (.of_frame fun u => u.cooledDown_holdView l) l .cooling) h
  | pwrfail => exact act_moves (.of_frame Sup.powerFails_holdView) h
  | pwrfailDeassert => exact act_moves (f := fun u => { u with lines.pwrfail := false }) (.of_frame fun _ => rfl) h
  | secondTick => exact act_moves (Sup.tickSecond_moves Sup.levelRelease_moves) h
  | graceExpiry => exact act_moves (.of_frame Sup.expireGrace_holdView) h
  | signalEdge input present => exact act_moves (.of_frame fun u => u.signalLine_holdView input present) h
  | signalDebounceExpiry input => exact act_moves (.of_frame fun u => u.signalSettled_holdView input) h
  | frameEdge => exact act_moves (.of_frame fun u => Sup.frameTick_holdView { u with seq.nextTick := u.after fiftyMillis }) h
  | substituteTick => exact act_moves (.of_frame Sup.substituteTick_holdView) h
  | noticeExpiry k => exact act_moves (.of_frame fun u => u.expireNotice_holdView k) h

/-- Every step changes the held writes by moves alone. -/
theorem step_moves {s t : State} (h : step s = .next t) : HoldMoves s.sup.holdView t.sup.holdView := by
  unfold step at h
  split at h
  · next c rest _ => exact exec_moves (s := { s with pending := rest }) h
  · split at h
    · exact exec_moves h
    · exact act_moves (f := fun u => { u with time.crystal := u.time.crystal + 1 }) (.of_frame fun _ => rfl) h

/-! ### The statements -/

/-- Settles O53: every move keeps the limits. -/
theorem stepsKeepTheHoldTableLimits : Obligations.StepsKeepTheHoldTableLimits := fun s t hlaw hstep =>
  t.holdLaw_iff_limits.2 ((step_moves hstep).keeps HoldMove.keeps_limits (s.holdLaw_iff_limits.1 hlaw))

/-- Settles O54: every move keeps the numbers distinct, and a new entry is made by `Sup.addEntry`, whose search for the counter's next
value passes the numbers in use. -/
theorem stepsKeepSequenceNumbersDistinct : Obligations.StepsKeepSequenceNumbersDistinct := by
  refine ⟨fun s t hlaw hstep => ?_, fun u p a data n c => ⟨?_, fun hlen => ?_⟩⟩
  · exact t.sequenceLaw_iff_numbered.2 ((step_moves hstep).keeps HoldMove.keeps_numbered (s.sequenceLaw_iff_numbered.1 hlaw))
  · exact ⟨_, List.getLast?_concat, rfl, rfl, rfl, rfl, rfl, rfl, rfl⟩
  · exact HoldView.enter_counter (v := u.holdView) hlen p a data n c u.room.uptime

end Sys2Proof.Machine
end

section
/-! PROOF. The keystone arithmetic (R159): the target coordinate by coordinate, the order check as four spans, the trims that a port
write and a reload let stand, and the slew of R161, during which no span of two coordinates falls below a bound met at both ends. -/

namespace Sys2Proof.Machine

/-! ### The target and the order check -/

theorem targetOf_at (g : GeometryParams) (trim : Corners) {i : Nat} (h : i < 8) :
    (targetOf g trim).at i = clampTo (g.minima.at i) (g.maxima.at i) (g.baseline.at i + trim.at i) := by
  simp only [targetOf, clampCorners, Corners.build_at _ h]

theorem orderOk_iff (g : GeometryParams) (c : Corners) :
    orderOk g c = true ↔
      (g.minWidth : Int) ≤ c.trX - c.tlX ∧ (g.minWidth : Int) ≤ c.brX - c.blX ∧
        (g.minHeight : Int) ≤ c.blY - c.tlY ∧ (g.minHeight : Int) ≤ c.brY - c.trY := by
  simp only [orderOk, Bool.and_eq_true, decide_eq_true_eq, and_assoc]

/-! ### The trims that stand (R160, R166) -/

/-- A GEOMETRY write passes as its candidate trim alone, and only past the order check. -/
theorem Sup.acceptTrim_ok {s : Sup} {offset : Nat} {bs : List Word} {c : Course} (h : s.acceptTrim offset bs = .ok c) :
    c = .absorb (.trim (candidateTrim s.geo.trim offset bs)) ∧
      orderOk s.chart.geometry (targetOf s.chart.geometry (candidateTrim s.geo.trim offset bs)) = true := by
  simp only [Sup.acceptTrim] at h
  split at h
  · cases h
  · split at h
    next hok =>
      cases h
      exact ⟨rfl, hok⟩
    next => cases h

theorem Sup.setLive_geo (s : Sup) (c : Corners) : (s.setLive c).geo = { s.geo with live := c } :=
  (congrArg Sup.geo (Sup.queueStatuses_control _ _) :)

theorem Sup.reloadGeometry_trim (s : Sup) :
    s.reloadGeometry.geo.trim = if orderOk s.geoParams (targetOf s.geoParams s.geo.trim) then s.geo.trim else .all 0 := by
  simp only [Sup.reloadGeometry, Sup.judgeSlew, Sup.setLive_geo]
  split
  · rfl
  · exact (s.setTrim_geo (.all 0)).1

/-! ### The slew (R161) -/

/-- One tick takes a coordinate as near to its target as the step allows. -/
theorem slewTo_eq_clamp (step : Nat) (live target : Int) :
    slewTo step live target = max (live - step) (min (live + step) target) := by
  unfold slewTo
  split
  next hup => omega
  next hdown => omega

theorem slewTo_mono (step : Nat) {a b a' b' : Int} (hlive : a ≤ b) (htarget : a' ≤ b') :
    slewTo step a a' ≤ slewTo step b b' := by
  rw [slewTo_eq_clamp, slewTo_eq_clamp]
  gcongr

theorem slewTo_shift (step : Nat) (live target w : Int) : slewTo step (live + w) (target + w) = slewTo step live target + w := by
  simp only [slewTo, Int.add_lt_add_iff_right]
  split
  next hup => omega
  next hdown => omega

/-- The span of two coordinates that move by the same step, each stopping at its own target, does not fall below a bound that it
meets at both ends. -/
theorem slewTo_keeps_span (step : Nat) {a b a' b' w : Int} (hlive : w ≤ b - a) (htarget : w ≤ b' - a') :
    w ≤ slewTo step b b' - slewTo step a a' := by
  have hspan : slewTo step a a' + w ≤ slewTo step b b' :=
    calc slewTo step a a' + w
      _ = slewTo step (a + w) (a' + w) := (slewTo_shift step a a' w).symm
      _ ≤ slewTo step b b' := slewTo_mono step (by omega) (by omega)
  omega

theorem slewed_keeps_span (g : GeometryParams) (muted : Bool) {live target : Corners} {i j : Nat} {w : Int} (hi : i < 8) (hj : j < 8)
    (hlive : w ≤ live.at j - live.at i) (htarget : w ≤ target.at j - target.at i) :
    w ≤ (slewed g muted live target).at j - (slewed g muted live target).at i := by
  unfold slewed
  split
  next hjump => exact htarget
  next hstep =>
    rw [Corners.build_at _ hi, Corners.build_at _ hj]
    exact slewTo_keeps_span g.slewStep hlive htarget

/-- A tick between corners that pass the order check leads to corners that pass it: each of its four spans is kept (R159). -/
theorem slewed_keeps_order {g : GeometryParams} (muted : Bool) {live target : Corners} (hlive : orderOk g live = true)
    (htarget : orderOk g target = true) : orderOk g (slewed g muted live target) = true := by
  obtain ⟨top, bottom, left, right⟩ := (orderOk_iff g live).1 hlive
  obtain ⟨top', bottom', left', right'⟩ := (orderOk_iff g target).1 htarget
  exact (orderOk_iff g _).2
    ⟨slewed_keeps_span g muted (i := 0) (j := 2) (by decide) (by decide) top top',
      slewed_keeps_span g muted (i := 4) (j := 6) (by decide) (by decide) bottom bottom',
      slewed_keeps_span g muted (i := 1) (j := 5) (by decide) (by decide) left left',
      slewed_keeps_span g muted (i := 3) (j := 7) (by decide) (by decide) right right'⟩

/-! ### The statement -/

/-- Settles O46: the parts above, one for each clause; the slew keeps the order check since it keeps each span. -/
theorem targetIsTheClampedSum : Obligations.TargetIsTheClampedSum := by
  refine ⟨fun g trim i hi => targetOf_at g trim hi, Sup.setTrim_geo, orderOk_iff, fun u offset bs trim haccept => ?_,
    Sup.reloadGeometry_trim, fun g muted live target hlive htarget => slewed_keeps_order muted hlive htarget⟩
  obtain ⟨hcourse, hok⟩ := Sup.acceptTrim_ok haccept
  cases hcourse
  exact hok

end Sys2Proof.Machine
end
